-- ==== Sys2Proof/Word.lean ====
section
/-! DEFINITION. The widths the block works in: 00_scope.md R8 and R9. -/

namespace Sys2Proof

/-- A report byte, an argument byte, a response code (R8, R9). -/
abbrev Byte := BitVec 8

/-- The response data, the descriptors, STATUS and LAST_INFO (R8). -/
abbrev Word := BitVec 32

/-- The command word (R8, R53). -/
abbrev CmdWord := BitVec 64

/-- A profile's colour, or the detail of an exception: 24 bits (R24, R148). -/
abbrev Word24 := BitVec 24

end Sys2Proof
end

