-- ==== Sys2Proof/Config.lean ====
section
/-! DEFINITION. What an implementation fixes and the spec leaves open: the four level counts of
00_scope.md R7 (log 2). The fifth open parameter, DEFAULT_REPORT, is in Config/DefaultReport.lean, because
its constraint speaks of LOAD's decode. -/

namespace Sys2Proof.Config

/-- How far N_BREATHE_SPEED lies above its least value; no value is known (R7, D15, log 2). -/
opaque breatheSpeedAboveLeast : Fin 11

/-- How far N_FREQUENCY lies above its least value (R7, D15, log 2). -/
opaque frequencyAboveLeast : Fin 251

/-- How far N_TIMES lies above its least value (R7, D15, log 2). -/
opaque timesAboveLeast : Fin 253

/-- How far N_HOLD_TIME lies above its least value (R7, D15, log 2). -/
opaque holdTimeAboveLeast : Fin 255

/-- N_BREATHE_SPEED: any number with 5 ≤ N ≤ 15 (R7). -/
def nBreatheSpeed : Nat := breatheSpeedAboveLeast.val + 5

/-- N_FREQUENCY: any number with 5 ≤ N ≤ 255 (R7). -/
def nFrequency : Nat := frequencyAboveLeast.val + 5

/-- N_TIMES: any number with 3 ≤ N ≤ 255 (R7). -/
def nTimes : Nat := timesAboveLeast.val + 3

/-- N_HOLD_TIME: any number with 1 ≤ N ≤ 255 (R7). -/
def nHoldTime : Nat := holdTimeAboveLeast.val + 1

end Sys2Proof.Config
end

