-- ==== Sys2Proof/Machine/Bits.lean ====
section
/-! DEFINITION. The notation of 00_scope.md R9: fields of a word, and words put together from bytes. -/

namespace Sys2Proof

/-- `v[hi:lo]`: the field of `v` from bit `hi` down to bit `lo`, inclusive, as an unsigned number (R9). -/
def bitsOf {w : Nat} (v : BitVec w) (hi lo : Nat) : Nat := (v.extractLsb' lo (hi + 1 - lo)).toNat

/-- `popcount(m)`: the number of one bits of `m` (R9). -/
def popcount {w : Nat} (m : BitVec w) : Nat := (List.range w).countP fun i => m.getLsbD i

/-- `a ++ b ++ c ++ d`, `a` in the most significant byte (R9): the form of a raw quad (R62). -/
def wordOfBytes (a b c d : Byte) : Word := a ++ b ++ c ++ d

end Sys2Proof
end

