-- ==== Sys2Proof/Syntax.lean ====
section
/-! DEFINITION. The instructions: one constructor for every row of spec/opcode_table.json, the 20 commands
(30_encoding.md R58) and the 8 LED mode bytes (R70, 42_led_effect_codec.md R108).

Operands are the fields R59 gives, as they stand in the word: a selector, an offset, a DPI index and an ordinal
id are numbers; a raw byte, a colour, a descriptor, a raw quad and a mask are bits. An operand outside its legal
range is still an operand: the command's meaning raises on it (R55, R57). -/

namespace Sys2Proof

inductive Instr where
  /-- LOADDEF (R121). -/
  | loaddef
  /-- LOAD, the bytes on WIN (R122). -/
  | load
  /-- RDRAW (R79). -/
  | rdraw
  /-- RDBYTE offset (R80). -/
  | rdbyte (offset : Nat)
  /-- RDFLD field id (R81). -/
  | rdfld (field : Nat)
  /-- GETPROF pid (R124). -/
  | getprof (pid : Nat)
  /-- GETLED (R125). -/
  | getled
  /-- SETDPI pid, dpi (R126). -/
  | setdpi (pid dpi : Nat)
  /-- SETACT pid, active (R127). -/
  | setact (pid : Nat) (active : Bool)
  /-- SETRGB pid, rgb (R128). -/
  | setrgb (pid : Nat) (rgb : Word24)
  /-- SETLED descriptor (R129). -/
  | setled (desc : Word)
  /-- RDSTAT register (R141). -/
  | rdstat (reg : Nat)
  /-- DPIENC active, dpi (R96). -/
  | dpienc (active : Bool) (dpi : Nat)
  /-- DPIDEC raw (R97). -/
  | dpidec (raw : Byte)
  /-- AFFENC family, id (R98). -/
  | affenc (family id : Nat)
  /-- AFFDEC family, raw (R99). -/
  | affdec (family : Nat) (raw : Byte)
  /-- LEDENC descriptor (R116). -/
  | ledenc (desc : Word)
  /-- LEDDEC raw quad (R117). -/
  | leddec (quad : Word)
  /-- CNTENC mask (R103). -/
  | cntenc (mask : BitVec 5)
  /-- CNTDEC raw (R104). -/
  | cntdec (raw : Byte)
  /-- LED mode 0x28: Steady (R108). -/
  | ledSteady (arg1 arg2 arg3 : Byte)
  /-- LED mode 0x22: Breathe. -/
  | ledBreathe (arg1 arg2 arg3 : Byte)
  /-- LED mode 0x42: BlinkEffect of Respiration. -/
  | ledBlinkResp (arg1 arg2 arg3 : Byte)
  /-- LED mode 0x44: BlinkEffect of SteadyGlow. -/
  | ledBlinkGlow (arg1 arg2 arg3 : Byte)
  /-- LED mode 0x48: BlinkEffect of Neon. -/
  | ledBlinkNeon (arg1 arg2 arg3 : Byte)
  /-- LED mode 0x82: SteadyEffect of Respiration. -/
  | ledHoldResp (arg1 arg2 arg3 : Byte)
  /-- LED mode 0x84: SteadyEffect of SteadyGlow. -/
  | ledHoldGlow (arg1 arg2 arg3 : Byte)
  /-- LED mode 0x88: SteadyEffect of Neon. -/
  | ledHoldNeon (arg1 arg2 arg3 : Byte)
  deriving DecidableEq, Repr

end Sys2Proof
end

