-- ==== Sys2Proof/WellFormed.lean ====
section
/-! DEFINITION. An instruction is well formed when each number in it fits the eight bits its field has in the
command word (30_encoding.md R53, R59). The bit-vector operands have their field's width by their type, so
there is nothing to check of them. -/

namespace Sys2Proof

/-- The number fits an 8-bit field: SEL (R55), or DATA[7:0]. -/
def fitsByte (n : Nat) : Bool := decide (n < 256)

/-- Every numeric operand fits its field (R59). -/
def Instr.wellFormed : Instr → Bool
  | .loaddef => true
  | .load => true
  | .rdraw => true
  | .rdbyte offset => fitsByte offset
  | .rdfld field => fitsByte field
  | .getprof pid => fitsByte pid
  | .getled => true
  | .setdpi pid dpi => fitsByte pid && fitsByte dpi
  | .setact pid _ => fitsByte pid
  | .setrgb pid _ => fitsByte pid
  | .setled _ => true
  | .rdstat reg => fitsByte reg
  | .dpienc _ dpi => fitsByte dpi
  | .dpidec _ => true
  | .affenc family id => fitsByte family && fitsByte id
  | .affdec family _ => fitsByte family
  | .ledenc _ => true
  | .leddec _ => true
  | .cntenc _ => true
  | .cntdec _ => true
  | .ledSteady _ _ _ => true
  | .ledBreathe _ _ _ => true
  | .ledBlinkResp _ _ _ => true
  | .ledBlinkGlow _ _ _ => true
  | .ledBlinkNeon _ _ _ => true
  | .ledHoldResp _ _ _ => true
  | .ledHoldGlow _ _ _ => true
  | .ledHoldNeon _ _ _ => true

end Sys2Proof
end

