-- ==== Sys2Proof/Decode.lean ====
section
/-! DEFINITION. Decoding and encoding, from the tables of 30_encoding.md (R53 to R59, R66) and, for the LED mode
bytes, R62, R70 and 42_led_effect_codec.md R108.

The block has two opcode spaces: the 64-bit command word, and the LED mode byte of the raw quad that the LED
interpreter decodes (R70). `Presented` says which of the two a given word stands in. -/

namespace Sys2Proof

/-- What can be presented for decoding: a command word on CMD (R53), or the four LED bytes as one raw quad
(R62, log 6). -/
inductive Presented where
  | command (w : CmdWord)
  | quad (q : Word)
  deriving DecidableEq, Repr

/-- Why a word selects no instruction: R67, R68, R70. -/
inductive DecodeError where
  /-- OPC is not assigned (R67). -/
  | unassignedOpcode (opc : Byte)
  /-- A bit under MASK differs from MATCH (R68). -/
  | maskMismatch
  /-- The mode byte is none of the eight (R70). -/
  | unknownLedMode (mode : Byte)
  deriving DecidableEq, Repr

/-- OPC, `w[63:56]` (R53). -/
def opcField (w : CmdWord) : Byte := w.extractLsb' 56 8

/-- SEL, `w[55:48]`, as the number it stands for (R53, R55). -/
def selField (w : CmdWord) : Nat := bitsOf w 55 48

/-- DATA, `w[31:0]` (R53). -/
def dataField (w : CmdWord) : Word := w.extractLsb' 0 32

/-- DATA[7:0] as a byte (R59). -/
def dataByte (w : CmdWord) : Byte := w.extractLsb' 0 8

/-- One row of the operand table R59: MASK, MATCH and how the operand fields are read. OPC is MATCH[63:56]. -/
structure CommandRow where
  mask : CmdWord
  match_ : CmdWord
  operands : CmdWord → Instr

/-- The first twelve rows of R59: construction, report and cache access, mutators, status. -/
def modelRows : List CommandRow := [
  ⟨0xFFFFFFFFFFFFFFFF, 0x0100000000000000, fun _ => .loaddef⟩,
  ⟨0xFFFFFFFFFFFFFFFF, 0x0200000000000000, fun _ => .load⟩,
  ⟨0xFFFFFFFFFFFFFFFF, 0x0300000000000000, fun _ => .rdraw⟩,
  ⟨0xFFFFFFFFFFFFFF00, 0x0400000000000000, fun w => .rdbyte (bitsOf w 7 0)⟩,
  ⟨0xFF00FFFFFFFFFFFF, 0x0500000000000000, fun w => .rdfld (selField w)⟩,
  ⟨0xFF00FFFFFFFFFFFF, 0x0600000000000000, fun w => .getprof (selField w)⟩,
  ⟨0xFFFFFFFFFFFFFFFF, 0x0700000000000000, fun _ => .getled⟩,
  ⟨0xFF00FFFFFFFFFF00, 0x0800000000000000, fun w => .setdpi (selField w) (bitsOf w 7 0)⟩,
  ⟨0xFF00FFFFFFFFFFFE, 0x0900000000000000, fun w => .setact (selField w) (w.getLsbD 0)⟩,
  ⟨0xFF00FFFFFF000000, 0x0A00000000000000, fun w => .setrgb (selField w) (w.extractLsb' 0 24)⟩,
  ⟨0xFFFFFFFF00000000, 0x0B00000000000000, fun w => .setled (dataField w)⟩,
  ⟨0xFF00FFFFFFFFFFFF, 0x0C00000000000000, fun w => .rdstat (selField w)⟩]

/-- The last eight rows of R59: the codec commands. -/
def codecRows : List CommandRow := [
  ⟨0xFFFFFFFFFFFFFE00, 0x1000000000000000, fun w => .dpienc (w.getLsbD 8) (bitsOf w 7 0)⟩,
  ⟨0xFFFFFFFFFFFFFF00, 0x1100000000000000, fun w => .dpidec (dataByte w)⟩,
  ⟨0xFF00FFFFFFFFFF00, 0x1200000000000000, fun w => .affenc (selField w) (bitsOf w 7 0)⟩,
  ⟨0xFF00FFFFFFFFFF00, 0x1300000000000000, fun w => .affdec (selField w) (dataByte w)⟩,
  ⟨0xFFFFFFFF00000000, 0x1400000000000000, fun w => .ledenc (dataField w)⟩,
  ⟨0xFFFFFFFF00000000, 0x1500000000000000, fun w => .leddec (dataField w)⟩,
  ⟨0xFFFFFFFFFFFFFFE0, 0x1600000000000000, fun w => .cntenc (w.extractLsb' 0 5)⟩,
  ⟨0xFFFFFFFFFFFFFF00, 0x1700000000000000, fun w => .cntdec (dataByte w)⟩]

/-- The operand table R59, one row for each assigned opcode of R58. -/
def commandTable : List CommandRow := modelRows ++ codecRows

/-- The row whose opcode is `opc`, if it is assigned (R54, R58). -/
def commandRow? (opc : Byte) : Option CommandRow := commandTable.find? fun r => opcField r.match_ == opc

/-- R66: the opcode first, then the bits under MASK. -/
def decodeCommand (w : CmdWord) : Except DecodeError Instr :=
  match commandRow? (opcField w) with
  | none => .error (.unassignedOpcode (opcField w))
  | some row => if w &&& row.mask = row.match_ then .ok (row.operands w) else .error .maskMismatch

/-- The eight LED mode bytes of R108 and the instruction each stands for. -/
def ledOpcodes : List (Byte × (Byte → Byte → Byte → Instr)) := [
  (0x28, .ledSteady), (0x22, .ledBreathe),
  (0x42, .ledBlinkResp), (0x44, .ledBlinkGlow), (0x48, .ledBlinkNeon),
  (0x82, .ledHoldResp), (0x84, .ledHoldGlow), (0x88, .ledHoldNeon)]

/-- Decode a raw quad: the mode byte selects the instruction, the other three bytes are its arguments
(R62, R109, R110). -/
def decodeQuad (q : Word) : Except DecodeError Instr :=
  match ledOpcodes.find? fun e => e.1 == q.extractLsb' 24 8 with
  | none => .error (.unknownLedMode (q.extractLsb' 24 8))
  | some (_, build) => .ok (build (q.extractLsb' 16 8) (q.extractLsb' 8 8) (q.extractLsb' 0 8))

/-- The whole decoder. It is total, and it never looks at the machine's state (R66, R77). -/
def decode : Presented → Except DecodeError Instr
  | .command w => decodeCommand w
  | .quad q => decodeQuad q

/-- A command word from its three fields, RSV zero (R53, R56). -/
def packCommand (opc : Byte) (sel : Nat) (data : Word) : CmdWord := opc ++ BitVec.ofNat 8 sel ++ (0 : BitVec 16) ++ data

/-- A raw quad from its mode byte and arguments (R62). -/
def packQuad (mode arg1 arg2 arg3 : Byte) : Word := wordOfBytes mode arg1 arg2 arg3

/-- The words of an instruction, from R58, R59, R62 and R108. -/
def encode : Instr → Presented
  | .loaddef => .command (packCommand 0x01 0 0)
  | .load => .command (packCommand 0x02 0 0)
  | .rdraw => .command (packCommand 0x03 0 0)
  | .rdbyte offset => .command (packCommand 0x04 0 (BitVec.ofNat 32 offset))
  | .rdfld field => .command (packCommand 0x05 field 0)
  | .getprof pid => .command (packCommand 0x06 pid 0)
  | .getled => .command (packCommand 0x07 0 0)
  | .setdpi pid dpi => .command (packCommand 0x08 pid (BitVec.ofNat 32 dpi))
  | .setact pid active => .command (packCommand 0x09 pid (BitVec.ofNat 32 active.toNat))
  | .setrgb pid rgb => .command (packCommand 0x0A pid (rgb.zeroExtend 32))
  | .setled desc => .command (packCommand 0x0B 0 desc)
  | .rdstat reg => .command (packCommand 0x0C reg 0)
  | .dpienc active dpi => .command (packCommand 0x10 0 (BitVec.ofNat 32 (active.toNat * 256 + dpi)))
  | .dpidec raw => .command (packCommand 0x11 0 (raw.zeroExtend 32))
  | .affenc family id => .command (packCommand 0x12 family (BitVec.ofNat 32 id))
  | .affdec family raw => .command (packCommand 0x13 family (raw.zeroExtend 32))
  | .ledenc desc => .command (packCommand 0x14 0 desc)
  | .leddec quad => .command (packCommand 0x15 0 quad)
  | .cntenc mask => .command (packCommand 0x16 0 (mask.zeroExtend 32))
  | .cntdec raw => .command (packCommand 0x17 0 (raw.zeroExtend 32))
  | .ledSteady a1 a2 a3 => .quad (packQuad 0x28 a1 a2 a3)
  | .ledBreathe a1 a2 a3 => .quad (packQuad 0x22 a1 a2 a3)
  | .ledBlinkResp a1 a2 a3 => .quad (packQuad 0x42 a1 a2 a3)
  | .ledBlinkGlow a1 a2 a3 => .quad (packQuad 0x44 a1 a2 a3)
  | .ledBlinkNeon a1 a2 a3 => .quad (packQuad 0x48 a1 a2 a3)
  | .ledHoldResp a1 a2 a3 => .quad (packQuad 0x82 a1 a2 a3)
  | .ledHoldGlow a1 a2 a3 => .quad (packQuad 0x84 a1 a2 a3)
  | .ledHoldNeon a1 a2 a3 => .quad (packQuad 0x88 a1 a2 a3)

/-- Byte `k` of a table word: bits `8k + 7` down to `8k`, the first byte least significant. -/
def tableByte (w k : Nat) : Byte := BitVec.ofNat 8 (w >>> (8 * k))

/-- What a table row's word presents. A row of up to 32 bits is an LED mode byte with, above it, the argument
bytes in offset order (93 first, R62); a longer row is one command word, bit 0 its least significant bit (R53).
Bits above `nbits` are zero. -/
def presentedOfTableWord (nbits w : Nat) : Presented :=
  if nbits ≤ 32 then
    let v := w % 2 ^ nbits
    .quad (packQuad (tableByte v 0) (tableByte v 1) (tableByte v 2) (tableByte v 3))
  else .command (BitVec.ofNat 64 (w % 2 ^ nbits))

/-- The instruction the decoder reads from a table row's word (log 11). -/
def decodeTableWord (nbits w : Nat) : Option Instr := (decode (presentedOfTableWord nbits w)).toOption

end Sys2Proof
end

