-- ==== Sys2Proof/Machine/Exception.lean ====
section
/-! DEFINITION. The block's exceptions: kinds and codes (60_exceptions.md R147), causes and details (R148).
What raising one does to the state is `State.raise` in Machine/Ops.lean. -/

namespace Sys2Proof.Machine

/-- The three kinds of R147. -/
inductive ExcKind where
  | invalidRawInput
  | contractViolation
  | illegalCommand
  deriving DecidableEq, Repr

/-- The exception codes driven on RESP_CODE and stored in LAST_CODE (R147). -/
def ExcKind.code : ExcKind → Nat
  | .invalidRawInput => 1
  | .contractViolation => 2
  | .illegalCommand => 3

/-- `E(cause, detail)` of R11: an 8-bit cause and a 24-bit detail. -/
structure Exc where
  kind : ExcKind
  cause : Byte
  detail : Word24
  deriving DecidableEq, Repr

/-- A 24-bit detail. Every detail of R148 fits, so the narrowing loses nothing. -/
def detailOf (n : Nat) : Word24 := BitVec.ofNat 24 n

/-- Cause 0x01: LOAD's list is not 154 bytes long; the detail saturates (R122, R148). -/
def Exc.badLength (length : Nat) : Exc := ⟨.invalidRawInput, 0x01, detailOf (min length 0xFFFFFF)⟩

/-- Cause 0x02: a DPI byte with bits 6:0 zero; `loc` is its report offset, 0 in DPIDEC (R89, R148). -/
def Exc.badDpiByte (loc : Nat) (raw : Byte) : Exc := ⟨.invalidRawInput, 0x02, detailOf (loc * 256 + raw.toNat)⟩

/-- Cause 0x03: an unknown LED mode byte (R110, R148). -/
def Exc.badLedMode (mode : Byte) : Exc := ⟨.invalidRawInput, 0x03, detailOf (93 * 256 + mode.toNat)⟩

/-- Cause 0x04: argument `slot` (1 to 3) is no code of its family (R110, R148). -/
def Exc.badLedArg (slot : Nat) (arg : Byte) : Exc := ⟨.invalidRawInput, 0x04, detailOf ((93 + slot) * 256 + arg.toNat)⟩

/-- Cause 0x05: a DPI index above 126 (R87, R148). -/
def Exc.badDpiIndex (dpi : Nat) : Exc := ⟨.invalidRawInput, 0x05, detailOf dpi⟩

/-- Cause 0x06: a raw byte that is no code of family `family` (R99, R148). -/
def Exc.badAffineByte (family : Nat) (raw : Byte) : Exc := ⟨.invalidRawInput, 0x06, detailOf (family * 256 + raw.toNat)⟩

/-- Cause 0x07: an active-count byte outside 0x20 to 0x25 (R102, R148). -/
def Exc.badCountByte (raw : Byte) : Exc := ⟨.invalidRawInput, 0x07, detailOf raw.toNat⟩

/-- Cause 0x10: a selector out of range (R55, R148). -/
def Exc.badSelector (sel : Nat) : Exc := ⟨.contractViolation, 0x10, detailOf sel⟩

/-- Cause 0x11: a DATA operand out of range; the detail is the offset, the id or the descriptor's low 24 bits
(R148). -/
def Exc.badOperand (operand : Nat) : Exc := ⟨.contractViolation, 0x11, detailOf operand⟩

/-- Cause 0x20: an unassigned opcode (R66, R67). -/
def Exc.unassignedOpcode (opc : Byte) : Exc := ⟨.illegalCommand, 0x20, detailOf opc.toNat⟩

/-- Cause 0x21: a bit under MASK differs from MATCH (R66, R68). -/
def Exc.maskMismatch : Exc := ⟨.illegalCommand, 0x21, 0⟩

/-- The exception of a word that selects no instruction: R66 for a command word, R110 for a raw quad. -/
def excOfDecodeError : DecodeError → Exc
  | .unassignedOpcode opc => .unassignedOpcode opc
  | .maskMismatch => .maskMismatch
  | .unknownLedMode mode => .badLedMode mode

end Sys2Proof.Machine
end

