-- ==== Sys2Proof/Machine/Codecs.lean ====
section
/-! DEFINITION. The field codecs of 41_field_codecs.md: the DPI-active packer (R87 to R90), the six affine
ordinal codecs (R91 to R94), the active count (R100, R102). They read their operands and the parameters alone
(R106). Arithmetic is on natural numbers and narrowed where a byte is made (R10). -/

namespace Sys2Proof.Machine

/-! ### The DPI-active packer -/

/-- A DPI index, 0 to 126 (R6, R27, C1). -/
abbrev DpiIndex := Fin 127

/-- The range check of R87: a DPI index above 126 raises InvalidRawInput. -/
def dpiIndex (d : Nat) : Except Exc DpiIndex :=
  if h : d < 127 then .ok ⟨d, h⟩ else .error (.badDpiIndex d)

/-- The byte of R87 for an index in range: the inverted active flag in bit 7, `d + 1` in bits 6:0 (R88). -/
def dpiByte (active : Bool) (d : DpiIndex) : Byte := BitVec.ofNat 8 ((1 - active.toNat) * 128 + (d.val + 1))

/-- `dpi_enc(a, d)` (R87). -/
def dpiEnc (active : Bool) (d : Nat) : Except Exc Byte := (dpiIndex d).map (dpiByte active)

/-- `dpi_dec(r, loc)` (R89): bits 6:0 zero raises. -/
def dpiDec (r : Byte) (loc : Nat) : Except Exc (Bool × DpiIndex) :=
  if h : bitsOf r 6 0 = 0 then .error (.badDpiByte loc r)
  else .ok (!r.getLsbD 7, ⟨bitsOf r 6 0 - 1, by have := (r.extractLsb' 0 7).isLt; simp only [bitsOf] at *; omega⟩)

/-! ### The affine ordinal codecs -/

/-- The six families of R91. -/
inductive Family where
  | brightness
  | breatheSpeed
  | neonSpeed
  | frequency
  | times
  | holdTime
  deriving DecidableEq, Repr

/-- `step_f` (R91). -/
def Family.step : Family → Nat
  | .brightness => 0x10
  | .breatheSpeed => 0x10
  | .neonSpeed => 0x10
  | .frequency => 1
  | .times => 1
  | .holdTime => 1

/-- `base_f` (R91). -/
def Family.base : Family → Nat
  | .brightness => 0x02
  | .breatheSpeed => 0x02
  | .neonSpeed => 0x00
  | .frequency => 0
  | .times => 0
  | .holdTime => 0

/-- `N_f`: the ids of the family are 1 to `N_f` (R91, R7). -/
def Family.count : Family → Nat
  | .brightness => 10
  | .breatheSpeed => Config.nBreatheSpeed
  | .neonSpeed => 15
  | .frequency => Config.nFrequency
  | .times => Config.nTimes
  | .holdTime => Config.nHoldTime

/-- `1 ≤ id ≤ N_f`. -/
def Family.hasId (f : Family) (id : Nat) : Bool := decide (1 ≤ id) && decide (id ≤ f.count)

/-- `id · step_f + base_f` as a byte; for an id of the family nothing is lost (R92). -/
def affCode (f : Family) (id : Nat) : Byte := BitVec.ofNat 8 (id * f.step + f.base)

/-- `aff_enc(f, id)` (R92). -/
def affEnc (f : Family) (id : Nat) : Except Exc Byte :=
  if f.hasId id then .ok (affCode f id) else .error (.badOperand id)

/-- `(r - base_f) / step_f` (R93). -/
def affQuotient (f : Family) (r : Byte) : Nat := (r.toNat - f.base) / f.step

/-- `aff_ok(f, r)` (R93). -/
def affOk (f : Family) (r : Byte) : Bool :=
  decide (f.base ≤ r.toNat) && (r.toNat - f.base) % f.step == 0 && f.hasId (affQuotient f r)

/-- `aff_dec(f, r)`, a byte because an id is at most 255; meant where `affOk f r` (R93). -/
def affDec (f : Family) (r : Byte) : Byte := BitVec.ofNat 8 (affQuotient f r)

/-! ### The active count -/

/-- COUNT_BIAS (R6). -/
def countBias : Nat := 0x20

/-- `cnt_enc(m)` (R100). -/
def cntEnc (mask : BitVec 5) : Byte := BitVec.ofNat 8 (popcount mask + countBias)

/-- `cnt_dec(r)` (R102). -/
def cntDec (r : Byte) : Except Exc Nat :=
  if r.toNat < 0x20 ∨ 0x25 < r.toNat then .error (.badCountByte r) else .ok (r.toNat - 0x20)

end Sys2Proof.Machine
end

