-- ==== Sys2Proof/Machine/LedCodec.lean ====
section
/-! DEFINITION. The LED-effect interpreter of 42_led_effect_codec.md: the LED configuration (R107), the mode table
(R108), `led_dec` (R110) and `led_enc` (R112). -/

namespace Sys2Proof.Machine

/-- A nested effect and its 1-based ordinal id (R107). An id is held in the eight bits its descriptor field
has (R61). -/
inductive Effect where
  | respiration (breatheSpeed : Byte)
  | steadyGlow (brightness : Byte)
  | neon (neonSpeed : Byte)
  deriving DecidableEq, Repr

/-- An LED configuration (R107). -/
inductive LedConfig where
  | steady (brightness : Byte)
  | breathe (speed : Byte)
  | blinkEffect (frequency times : Byte) (effect : Effect)
  | steadyEffect (holdTime : Byte) (effect : Effect)
  deriving DecidableEq, Repr

/-- The kind of a nested effect, K of R61. -/
inductive EffectKind where
  | respiration
  | steadyGlow
  | neon
  deriving DecidableEq, Repr

/-- What a mode byte selects: the outer variant and, in the two composite variants, the nested effect (R109). -/
inductive LedShape where
  | steady
  | breathe
  | blinkEffect (k : EffectKind)
  | steadyEffect (k : EffectKind)
  deriving DecidableEq, Repr

/-- One row of the mode table: the mode byte and the family of each argument slot, `none` for an unused slot
(R108). Every mode uses slot 3. -/
structure LedRow where
  mode : Byte
  fam1 : Option Family
  fam2 : Option Family
  fam3 : Family
  deriving DecidableEq, Repr

/-- The mode table R108, row by row. -/
def LedShape.row : LedShape → LedRow
  | .steady                   => ⟨0x28, none,            none,        .brightness⟩
  | .breathe                  => ⟨0x22, none,            none,        .breatheSpeed⟩
  | .blinkEffect .respiration  => ⟨0x42, some .frequency, some .times, .breatheSpeed⟩
  | .blinkEffect .steadyGlow   => ⟨0x44, some .frequency, some .times, .brightness⟩
  | .blinkEffect .neon         => ⟨0x48, some .frequency, some .times, .neonSpeed⟩
  | .steadyEffect .respiration => ⟨0x82, some .holdTime,  none,        .breatheSpeed⟩
  | .steadyEffect .steadyGlow  => ⟨0x84, some .holdTime,  none,        .brightness⟩
  | .steadyEffect .neon        => ⟨0x88, some .holdTime,  none,        .neonSpeed⟩

/-- All eight shapes, in the order of R108. -/
def ledShapes : List LedShape :=
  [.steady, .breathe, .blinkEffect .respiration, .blinkEffect .steadyGlow, .blinkEffect .neon,
   .steadyEffect .respiration, .steadyEffect .steadyGlow, .steadyEffect .neon]

/-- The shape a mode byte selects: none for the 248 unknown bytes (R70, R108). -/
def ledShape? (mode : Byte) : Option LedShape := ledShapes.find? fun sh => sh.row.mode == mode

/-- The nested effect of a kind with its id: `E(K, x)` of R110. -/
def EffectKind.build : EffectKind → Byte → Effect
  | .respiration, x => .respiration x
  | .steadyGlow, x => .steadyGlow x
  | .neon, x => .neon x

/-- The configuration of a shape with the ids of its three slots (R110). -/
def LedShape.build (id1 id2 id3 : Byte) : LedShape → LedConfig
  | .steady => .steady id3
  | .breathe => .breathe id3
  | .blinkEffect k => .blinkEffect id1 id2 (k.build id3)
  | .steadyEffect k => .steadyEffect id1 (k.build id3)

/-- The kind of an effect. -/
def Effect.kind : Effect → EffectKind
  | .respiration _ => .respiration
  | .steadyGlow _ => .steadyGlow
  | .neon _ => .neon

/-- The id of an effect, the one of slot 3 (R109). -/
def Effect.id : Effect → Byte
  | .respiration x => x
  | .steadyGlow x => x
  | .neon x => x

/-- The shape of a configuration. -/
def LedConfig.shape : LedConfig → LedShape
  | .steady _ => .steady
  | .breathe _ => .breathe
  | .blinkEffect _ _ e => .blinkEffect e.kind
  | .steadyEffect _ e => .steadyEffect e.kind

/-- The id of slot 1, 0 where the slot is unused (R112, R113). -/
def LedConfig.id1 : LedConfig → Byte
  | .steady _ => 0
  | .breathe _ => 0
  | .blinkEffect f _ _ => f
  | .steadyEffect h _ => h

/-- The id of slot 2, 0 where the slot is unused. -/
def LedConfig.id2 : LedConfig → Byte
  | .steady _ => 0
  | .breathe _ => 0
  | .blinkEffect _ t _ => t
  | .steadyEffect _ _ => 0

/-- The id of slot 3. -/
def LedConfig.id3 : LedConfig → Byte
  | .steady b => b
  | .breathe s => s
  | .blinkEffect _ _ e => e.id
  | .steadyEffect _ e => e.id

/-- An id of the slot's family, or 0 in an unused slot. -/
def slotHasId (fam : Option Family) (id : Byte) : Bool :=
  match fam with
  | none => id == 0
  | some f => f.hasId id.toNat

/-- A configuration is representable when every leaf is an id of its family (R107). -/
def LedConfig.representable (v : LedConfig) : Bool :=
  slotHasId v.shape.row.fam1 v.id1 && slotHasId v.shape.row.fam2 v.id2 && v.shape.row.fam3.hasId v.id3.toNat

/-- The four LED bytes, report offsets 93 to 96 (R62). -/
structure LedQuad where
  mode : Byte
  arg1 : Byte
  arg2 : Byte
  arg3 : Byte
  deriving DecidableEq, Repr

/-- One argument slot of `led_dec`: an unused slot is not read, a used one must hold a code of its family
(R110, R111). -/
def ledArg (fam : Option Family) (slot : Nat) (arg : Byte) : Except Exc Byte :=
  match fam with
  | none => .ok 0
  | some f => if affOk f arg then .ok (affDec f arg) else .error (.badLedArg slot arg)

/-- `led_dec` once the mode byte has selected its row: argument 1, then 2, then 3 (R110). -/
def ledDecAs (sh : LedShape) (a1 a2 a3 : Byte) : Except Exc LedConfig := do
  let id1 ← ledArg sh.row.fam1 1 a1
  let id2 ← ledArg sh.row.fam2 2 a2
  let id3 ← ledArg (some sh.row.fam3) 3 a3
  return sh.build id1 id2 id3

/-- `led_dec(m, a1, a2, a3)` (R110): the mode first. -/
def ledDec (q : LedQuad) : Except Exc LedConfig :=
  match ledShape? q.mode with
  | none => .error (.badLedMode q.mode)
  | some sh => ledDecAs sh q.arg1 q.arg2 q.arg3

/-- One argument byte of `led_enc`: 0 in an unused slot (R112). -/
def ledArgCode (fam : Option Family) (id : Byte) : Byte :=
  match fam with
  | none => 0
  | some f => affCode f id.toNat

/-- `led_enc(v)` (R112). For a representable `v` every `aff_enc` of R112 succeeds and gives `affCode`, so
`led_enc` never fails. -/
def ledEnc (v : LedConfig) : LedQuad :=
  let row := v.shape.row
  ⟨row.mode, ledArgCode row.fam1 v.id1, ledArgCode row.fam2 v.id2, affCode row.fam3 v.id3.toNat⟩

end Sys2Proof.Machine
end

