-- ==== Sys2Proof/Machine/Operands.lean ====
section
/-! DEFINITION. The operand and result formats of 30_encoding.md R60 to R65 and the range checks of R59: the
selectors, the profile descriptor, the LED descriptor, the raw quad, the DPI pair, the named fields. -/

namespace Sys2Proof.Machine

/-- A byte as response data: `zext_32` (R9). -/
def wordOfByte (b : Byte) : Word := b.zeroExtend 32

/-! ### Selectors -/

/-- A profile id, 0 to 4 (R59): the slot it names. -/
def profileSlot (pid : Nat) : Except Exc (Fin 5) :=
  if h : pid < 5 then .ok ⟨pid, h⟩ else .error (.badSelector pid)

/-- The affine family of SEL (R65). -/
def familyOfSel : Nat → Except Exc Family
  | 0 => .ok .brightness
  | 1 => .ok .breatheSpeed
  | 2 => .ok .neonSpeed
  | 3 => .ok .frequency
  | 4 => .ok .times
  | 5 => .ok .holdTime
  | sel => .error (.badSelector sel)

/-- Offset and size in bytes of the named field of id `f`, 0 to 15 (R64). -/
def fieldPlace (f : Nat) : Except Exc (Nat × Nat) :=
  if f = 0 then .ok (8, 1)
  else if f = 1 then .ok (71, 1)
  else if f ≤ 6 then .ok (74 + (f - 2), 1)
  else if f = 7 then .ok (93, 1)
  else if f = 8 then .ok (94, 1)
  else if f = 9 then .ok (95, 1)
  else if f = 10 then .ok (96, 1)
  else if f ≤ 15 then .ok (100 + 3 * (f - 11), 3)
  else .error (.badSelector f)

/-- RDBYTE's offset, 0 to 153 (R59, R80). -/
def reportOffset (offset : Nat) : Except Exc Nat :=
  if offset ≤ 153 then .ok offset else .error (.badOperand offset)

/-! ### The DPI pair and the raw quad -/

/-- The DPI pair: active in bit 8, dpi in bits 7:0 (R63). -/
def dpiPair (active : Bool) (d : DpiIndex) : Word := BitVec.ofNat 32 (active.toNat * 256 + d.val)

/-- The raw quad: the mode byte in [31:24], arguments 1, 2, 3 below it (R62). -/
def LedQuad.word (q : LedQuad) : Word := wordOfBytes q.mode q.arg1 q.arg2 q.arg3

/-- The four bytes of a raw quad (R62). -/
def quadOfWord (w : Word) : LedQuad :=
  ⟨w.extractLsb' 24 8, w.extractLsb' 16 8, w.extractLsb' 8 8, w.extractLsb' 0 8⟩

/-! ### The LED descriptor -/

/-- V of R61. -/
def LedShape.variant : LedShape → Nat
  | .steady => 0
  | .breathe => 1
  | .blinkEffect _ => 2
  | .steadyEffect _ => 3

/-- K of R61 for an effect kind. -/
def EffectKind.code : EffectKind → Nat
  | .respiration => 0
  | .steadyGlow => 1
  | .neon => 2

/-- K of R61: 0 in the two simple variants. -/
def LedShape.effectCode : LedShape → Nat
  | .steady => 0
  | .breathe => 0
  | .blinkEffect k => k.code
  | .steadyEffect k => k.code

/-- The descriptor of a configuration (R61, R113): V, K, four zero bits, P1, P2, P3. -/
def LedConfig.descriptor (v : LedConfig) : Word :=
  BitVec.ofNat 2 v.shape.variant ++ BitVec.ofNat 2 v.shape.effectCode ++ (0 : BitVec 4) ++ v.id1 ++ v.id2 ++ v.id3

/-- The upper bound of P3 for the effect kind K: "P3 in range of K" of R113. -/
def effectIdInRange (k p3 : Nat) : Bool :=
  match k with
  | 0 => decide (1 ≤ p3) && decide (p3 ≤ Config.nBreatheSpeed)
  | 1 => decide (1 ≤ p3) && decide (p3 ≤ 10)
  | 2 => decide (1 ≤ p3) && decide (p3 ≤ 15)
  | _ => false

/-- The clause of R113 for the variant V. -/
def variantFieldsOk (v k p1 p2 p3 : Nat) : Bool :=
  match v with
  | 0 => k == 0 && p1 == 0 && p2 == 0 && decide (1 ≤ p3) && decide (p3 ≤ 10)
  | 1 => k == 0 && p1 == 0 && p2 == 0 && decide (1 ≤ p3) && decide (p3 ≤ Config.nBreatheSpeed)
  | 2 => decide (1 ≤ p1) && decide (p1 ≤ Config.nFrequency) && decide (1 ≤ p2) && decide (p2 ≤ Config.nTimes)
         && effectIdInRange k p3
  | 3 => decide (1 ≤ p1) && decide (p1 ≤ Config.nHoldTime) && p2 == 0 && effectIdInRange k p3
  | _ => false

/-- `desc_ok(d)` (R113). -/
def descOk (d : Word) : Bool :=
  bitsOf d 27 24 == 0 && bitsOf d 29 28 != 3
  && variantFieldsOk (bitsOf d 31 30) (bitsOf d 29 28) (bitsOf d 23 16) (bitsOf d 15 8) (bitsOf d 7 0)

/-- The effect kind of K (R61); K = 3 is reserved and never reaches here. -/
def effectKindOfCode : Nat → EffectKind
  | 0 => .respiration
  | 1 => .steadyGlow
  | _ => .neon

/-- The shape of V and K (R61). -/
def shapeOfCodes (v k : Nat) : LedShape :=
  match v with
  | 0 => .steady
  | 1 => .breathe
  | 2 => .blinkEffect (effectKindOfCode k)
  | _ => .steadyEffect (effectKindOfCode k)

/-- The configuration a valid descriptor spells (R113). -/
def ledOfDescriptor (d : Word) : LedConfig :=
  (shapeOfCodes (bitsOf d 31 30) (bitsOf d 29 28)).build (d.extractLsb' 16 8) (d.extractLsb' 8 8) (d.extractLsb' 0 8)

/-- The LED operand of SETLED and LEDENC: a descriptor that is not valid raises with its low 24 bits
(R71, R116, R129). -/
def ledOperand (d : Word) : Except Exc LedConfig :=
  if descOk d then .ok (ledOfDescriptor d) else .error (.badOperand (bitsOf d 23 0))

end Sys2Proof.Machine
end

