-- ==== Sys2Proof/Machine/DecodeAll.lean ====
section
/-! DEFINITION. The cache (10_state.md R27, R28) and `decodeAll` (43_configuration_model.md R123), which builds it
from a 154-byte report. -/

namespace Sys2Proof.Machine

/-- REPORT_SIZE (R6). -/
abbrev reportSize : Nat := 154

/-- A report as a whole: 154 bytes, element `k` the byte at offset `k` (R18, R42). -/
abbrev Report := Vector Byte reportSize

/-- One profile slot of the cache (R27). -/
structure Profile where
  active : Bool
  dpi : DpiIndex
  rgb : Word24
  deriving DecidableEq, Repr

/-- The cache: five profile slots and one LED slot (R27, R28). -/
structure Cache where
  prof : Vector Profile 5
  led : LedConfig
  deriving DecidableEq, Repr

/-- Offset of the DPI byte of profile `i` (R19). -/
abbrev dpiOffset (i : Fin 5) : Nat := 74 + i.val

/-- Offset of the first colour byte of profile `i` (R24). -/
abbrev rgbOffset (i : Fin 5) : Nat := 100 + 3 * i.val

/-- `rgb_i` of R123: the byte at the lowest offset most significant (R24, R41). -/
def rgbOf (B : Report) (i : Fin 5) : Word24 :=
  B[rgbOffset i]'(by simp only [rgbOffset, reportSize]; omega) ++ B[rgbOffset i + 1]'(by simp only [rgbOffset, reportSize]; omega)
    ++ B[rgbOffset i + 2]'(by simp only [rgbOffset, reportSize]; omega)

/-- `(a_i, d_i)` of R123. -/
def dpiOf (B : Report) (i : Fin 5) : Except Exc (Bool × DpiIndex) :=
  dpiDec (B[dpiOffset i]'(by simp only [dpiOffset, reportSize]; omega)) (dpiOffset i)

/-- The four LED bytes of a report, offsets 93 to 96 (R123). -/
def quadOf (B : Report) : LedQuad := ⟨B[93], B[94], B[95], B[96]⟩

/-- Profile slot `i` from its decoded DPI byte and its colour (R123). -/
def profileOf (B : Report) (i : Fin 5) (ad : Bool × DpiIndex) : Profile := ⟨ad.1, ad.2, rgbOf B i⟩

/-- `decodeAll(B)` (R123): the five DPI bytes in profile order, then the LED bytes; no other check (R153). -/
def decodeAll (B : Report) : Except Exc Cache := do
  let d0 ← dpiOf B 0
  let d1 ← dpiOf B 1
  let d2 ← dpiOf B 2
  let d3 ← dpiOf B 3
  let d4 ← dpiOf B 4
  let v ← ledDec (quadOf B)
  return ⟨#v[profileOf B 0 d0, profileOf B 1 d1, profileOf B 2 d2, profileOf B 3 d3, profileOf B 4 d4], v⟩

/-- The length-checked constructor of R84 and R122. -/
def reportOfBytes (L : List Byte) : Except Exc Report :=
  if h : L.length = reportSize then .ok ⟨⟨L⟩, h⟩ else .error (.badLength L.length)

/-- LOAD's check of an offered list: the length, then `decodeAll` (R122, R153). -/
def loadCheck (L : List Byte) : Except Exc (Report × Cache) := do
  let B ← reportOfBytes L
  let c ← decodeAll B
  return (B, c)

end Sys2Proof.Machine
end

