-- ==== Sys2Proof/Config/DefaultReport.lean ====
section
/-! DEFINITION. DEFAULT_REPORT, the open parameter of 00_scope.md R7: 154 bytes on which LOAD's decode succeeds,
and nothing else known of them (log 1). -/

namespace Sys2Proof.Machine

/-- The test image T of 95_test_vectors.md. Here it only shows that a report meeting R7's constraint exists; no
claim and no reset value rests on its bytes. -/
def sampleBytes : List Byte :=
  List.replicate 8 0 ++ [0x01] ++ List.replicate 62 0 ++ [0x25, 0, 0, 0x01, 0x02, 0x03, 0x04, 0x05]
  ++ List.replicate 14 0 ++ [0x28, 0, 0, 0x52, 0, 0, 0]
  ++ [0xFF, 0, 0, 0, 0xFF, 0, 0, 0, 0xFF, 0xFF, 0xFF, 0, 0xFF, 0xFF, 0xFF]
  ++ List.replicate 35 0 ++ [0x5A, 0, 0, 0]

/-- The test image T as a report. -/
def sampleReport : Report := ⟨⟨sampleBytes⟩, rfl⟩

/-- A report LOAD's decode accepts: the constraint of R7 on DEFAULT_REPORT, carried with the bytes. -/
structure AdmissibleReport where
  bytes : Report := sampleReport
  decodes : (decodeAll bytes).isOk = true := by rfl
  deriving Inhabited

/-- The value of a result known to be one. -/
def okValue {ε α : Type} (r : Except ε α) (h : r.isOk = true) : α :=
  match r, h with
  | .ok a, _ => a

/-- The cache of an admissible report: `decodeAll` of it, which cannot raise (R121). -/
def AdmissibleReport.cache (R : AdmissibleReport) : Cache := okValue (decodeAll R.bytes) R.decodes

end Sys2Proof.Machine

namespace Sys2Proof.Config

/-- DEFAULT_REPORT, with the constraint of R7 and no value (R169, D16, N1, log 1). -/
opaque defaultReport : Machine.AdmissibleReport

end Sys2Proof.Config
end

