-- ==== Sys2Proof/Machine/Memory.lean ====
section
/-! DEFINITION. The report buffer RPT as memory (10_state.md R18, 20_memory.md R38): its one canonical form, the read
and the write of one byte, and `MemRead` and `MemWrite` of 00_scope.md R11, the one place where byte order is
decided (R41).

An offset that is not listed holds no byte: the address space is offsets 0 to 153 and each of them is listed
(log 8). -/

namespace Sys2Proof.Machine

/-- Memory: the bytes that exist, by offset (log 8). -/
abbrev Memory := List Host.Cell

/-- The canonical form: exactly the offsets 0 to 153, in rising order, one byte each (R18, R38). No listed byte
can equal what an unlisted offset reads as, since an unlisted offset reads as nothing. -/
def Memory.wf (m : Memory) : Bool := m.map Prod.fst == List.range reportSize

/-- The byte at an offset, none where no byte exists. -/
def Memory.read : Memory → Nat → Option Byte
  | [], _ => none
  | (a, b) :: m, o => if a = o then some b else Memory.read m o

/-- Put a byte at an offset; every other offset keeps what it has, and the list stays in rising order. -/
def Memory.write : Memory → Nat → Byte → Memory
  | [], o, v => [(o, v)]
  | (a, b) :: m, o, v =>
    if o < a then (o, v) :: (a, b) :: m
    else if o = a then (a, v) :: m
    else (a, b) :: Memory.write m o v

/-- `MemRead(o, n)`: the `n` bytes from offset `o`, the first most significant (R11). -/
def Memory.memRead (m : Memory) (o : Nat) : Nat → Option Nat
  | 0 => some 0
  | n + 1 =>
    match Memory.memRead m o n, m.read (o + n) with
    | some hi, some b => some (hi * 256 + b.toNat)
    | _, _ => none

/-- `MemWrite(o, n, v)`: byte `k` of the `n` bytes from offset `o` becomes `v[8(n-k)-1 : 8(n-k-1)]` (R11). -/
def Memory.memWrite (m : Memory) (o : Nat) : Nat → Nat → Memory
  | 0, _ => m
  | n + 1, v => Memory.memWrite (m.write o (BitVec.ofNat 8 (v / 256 ^ n))) (o + 1) n v

/-- All the bytes, in offset order, when the memory has each of the 154 (R42, R79). -/
def Memory.allBytes? (m : Memory) : Option (List Byte) := if m.wf then some (m.map Prod.snd) else none

/-- The memory that holds a report: offset `k` holds byte `k` (R42). -/
def Memory.ofReport (B : Report) : Memory := (List.finRange reportSize).map fun o => (o.val, B[o])

/-- The report a memory holds, when it has all 154 bytes. -/
def Memory.toReport? (m : Memory) : Option Report :=
  match m.allBytes? with
  | none => none
  | some L => (reportOfBytes L).toOption

end Sys2Proof.Machine
end

