-- ==== Sys2Proof/Machine/State.lean ====
section
/-! DEFINITION. The state: RPT, the cache C, STATUS and LAST_INFO, which are the block's whole state (10_state.md
R17), and the ports of R33 as the model holds them (log 3 to log 7). Plain data throughout. -/

namespace Sys2Proof.Machine

/-- What the host does next. -/
inductive Input where
  /-- It presents a word for decoding, with WIN carrying the bytes `win` (R33, R34; a raw quad: log 6). -/
  | present (p : Presented) (win : List Byte)
  /-- It asserts reset (R167, log 9). -/
  | reset
  deriving DecidableEq, Repr

/-- What the block drives in answer to a command: RESP_CODE, RESP_DATA and WOUT (R33). -/
structure Response where
  code : Byte
  data : Word
  wout : List Byte
  deriving DecidableEq, Repr

structure State where
  /-- RPT, the report buffer (R18). -/
  rpt : Memory
  /-- C, the cache (R27, R28). -/
  cache : Cache
  /-- STATUS (R31). -/
  status : Word
  /-- LAST_INFO (R32). -/
  lastInfo : Word
  /-- The model's own: what the host will present, first thing first (log 3). -/
  pending : List Input
  /-- The input port WIN as last offered (R33, log 5). -/
  win : List Byte
  /-- What the last command drove on the output ports; none before any command (R33, R167, log 4). -/
  resp : Option Response
  /-- The number of the next command of the run (R16, log 7). -/
  issued : Nat
  deriving DecidableEq, Repr

/-- The reasons the model can stop. The spec gives the block none: every exception is recorded and the next
command is accepted (R150). -/
inductive Fault where
  /-- RDRAW, RDBYTE or RDFLD needs a byte of RPT that the state does not hold. Only a state whose RPT is not 154
  bytes raises it, and no run from reset reaches one (log 8). Safe: the machine stops where the hardware has no
  such state. -/
  | missingReportByte
  deriving DecidableEq, Repr

/-- The reasons an instruction can have no meaning. -/
inductive Refusal where
  /-- Raised by an arm of `exec` whose instruction has no meaning yet; no arm does. Safe. -/
  | notModelled (mnemonic : String)
  deriving DecidableEq, Repr

/-- The state right after reset (R35, R36, R167): RPT is DEFAULT_REPORT, C its decode, STATUS and LAST_INFO
zero. Nothing is presented and nothing has been answered (log 3, log 4). -/
def State.reset : State where
  rpt := Memory.ofReport Config.defaultReport.bytes
  cache := Config.defaultReport.cache
  status := 0
  lastInfo := 0
  pending := []
  win := []
  resp := none
  issued := 0

end Sys2Proof.Machine
end

