-- ==== Sys2Proof/Machine/Flags.lean ====
section
/-! DEFINITION. The block's only flag-like state (10_state.md R26): the fields of STATUS (R31) and LAST_INFO (R32),
and how a command updates them (60_exceptions.md R151). -/

namespace Sys2Proof.Machine

/-- STATUS.LAST_CODE, bits [7:0] (R31). -/
def lastCode (status : Word) : Byte := status.extractLsb' 0 8

/-- The sticky bit of a kind: bit 8, 9 or 10, that is `7 + code` (R31, R147, R151). -/
def stickyBit (k : ExcKind) : Nat := 7 + k.code

/-- STATUS with LAST_CODE replaced; every other bit is kept (R151). -/
def setLastCode (status : Word) (code : Byte) : Word := (status &&& 0xFFFFFF00) ||| code.zeroExtend 32

/-- STATUS after a command that succeeded, RDSTAT excepted (R151). -/
def statusOnSuccess (status : Word) : Word := setLastCode status 0

/-- STATUS after a command that raised: the code, and the sticky bit of the kind (R151). -/
def statusOnRaise (status : Word) (k : ExcKind) : Word :=
  setLastCode status (BitVec.ofNat 8 k.code) ||| (1#32 <<< stickyBit k)

/-- LAST_INFO of an exception: `cause << 24 | detail` (R32, R148). -/
def infoOf (e : Exc) : Word := e.cause ++ e.detail

end Sys2Proof.Machine
end

