-- ==== Sys2Proof/Machine/Ops.lean ====
section
/-! DEFINITION. The shared operations of the commands: how a command ends (60_exceptions.md R150, R151), how the
mutators write RPT and C together (43_configuration_model.md), how a presentation and a reset enter the state. -/

namespace Sys2Proof.Machine

/-- The outcome type of every meaning. -/
abbrev Result := Host.Outcome State Fault Refusal

/-! ### How a command ends -/

/-- Success of a command other than RDSTAT: LAST_CODE and LAST_INFO become 0, RESP_CODE is 0 (R151). -/
def State.complete (s : State) (data : Word) (wout : List Byte) : State :=
  { s with status := statusOnSuccess s.status, lastInfo := 0, resp := some ⟨0, data, wout⟩ }

/-- Success of RDSTAT: STATUS and LAST_INFO stay as they were (R141, R151). -/
def State.completeKeepingRecord (s : State) (data : Word) : State :=
  { s with resp := some ⟨0, data, []⟩ }

/-- TAKING AN EXCEPTION (R150, R151): RPT and C keep their values, the response is the code with no data and an
empty WOUT, and the record is written. There is no trap entry and no return (R156, R157): the next command is
accepted as usual. -/
def State.raise (s : State) (e : Exc) : State :=
  { s with
    status := statusOnRaise s.status e.kind
    lastInfo := infoOf e
    resp := some ⟨BitVec.ofNat 8 e.kind.code, 0, []⟩ }

/-- End of a command that computes a result word and writes neither RPT nor C. -/
def answer (s : State) : Except Exc Word → Result
  | .ok d => .next (s.complete d [])
  | .error e => .next (s.raise e)

/-- End of a command that writes RPT and C: all of its writes, or none of them (R46, R154). -/
def commit (s : State) : Except Exc State → Result
  | .ok t => .next (t.complete 0 [])
  | .error e => .next (s.raise e)

/-- End of a command that reads a byte string of RPT: the model stops where a byte does not exist (log 8). -/
def withReportData {α : Type} (r : Option α) (k : α → Result) : Result :=
  match r with
  | some a => k a
  | none => .fault .missingReportByte

/-! ### Writing RPT and C -/

/-- RPT and C replaced as a whole (R121, R122). -/
def State.construct (s : State) (B : Report) (c : Cache) : State :=
  { s with rpt := Memory.ofReport B, cache := c }

/-- One profile slot of the cache replaced. -/
def Cache.withProfile (c : Cache) (i : Fin 5) (p : Profile) : Cache := { c with prof := c.prof.set i p }

/-- `MemWrite(o, n, v)` on RPT (R11). -/
def State.memWrite (s : State) (o n v : Nat) : State := { s with rpt := s.rpt.memWrite o n v }

/-- A profile slot replaced in C, and its DPI byte in RPT (R126, R127). -/
def State.writeProfileDpi (s : State) (i : Fin 5) (p : Profile) : State :=
  { s with cache := s.cache.withProfile i p }.memWrite (dpiOffset i) 1 (dpiByte p.active p.dpi).toNat

/-- A profile slot replaced in C, and its three colour bytes in RPT (R128). -/
def State.writeProfileRgb (s : State) (i : Fin 5) (p : Profile) : State :=
  { s with cache := s.cache.withProfile i p }.memWrite (rgbOffset i) 3 p.rgb.toNat

/-- The LED slot replaced in C, and the four LED bytes in RPT (R129). -/
def State.writeLed (s : State) (v : LedConfig) : State :=
  { s with cache := { s.cache with led := v } }.memWrite 93 4 (ledEnc v).word.toNat

/-- The active mask of the cache: bit `i` is profile `i` (R101). -/
def activeMask (c : Cache) : BitVec 5 :=
  BitVec.ofBool c.prof[4].active ++ BitVec.ofBool c.prof[3].active ++ BitVec.ofBool c.prof[2].active
    ++ BitVec.ofBool c.prof[1].active ++ BitVec.ofBool c.prof[0].active

/-- `recount()` (R101): RPT[71] becomes the count of the active profiles plus 0x20. -/
def State.recount (s : State) : State := s.memWrite 71 1 (cntEnc (activeMask s.cache)).toNat

/-! ### The ports -/

/-- A presentation enters: WIN carries its bytes and the command takes the next number (R16, R33, R34). -/
def State.accept (s : State) (win : List Byte) (rest : List Input) : State :=
  { s with pending := rest, win := win, issued := s.issued + 1 }

/-- The host asserts reset: every piece of state takes its reset value (R167); what the host does afterwards is
not the block's (log 9). -/
def State.assertReset (rest : List Input) : State := { State.reset with pending := rest }

/-- What WIN carries for the next presentation: what the host already offers with it, else what it last
offered (log 5). -/
def State.offeredWin (s : State) : List Byte :=
  match s.pending with
  | .present _ win :: _ => win
  | _ => s.win

/-- The same host, with `p` as the next thing it presents. -/
def State.presentNext (s : State) (p : Presented) : State :=
  { s with pending := .present p s.offeredWin :: s.pending.tail }

end Sys2Proof.Machine
end

