-- ==== Sys2Proof/Machine/ConfigModel.lean ====
section
/-! DEFINITION. The commands of 43_configuration_model.md: LOADDEF and LOAD construct, GETPROF and GETLED read the
cache, SETDPI, SETACT, SETRGB and SETLED change RPT and C together. -/

namespace Sys2Proof.Machine

/-- The profile descriptor (R60): active in bit 31, dpi in [30:24], rgb in [23:0]. -/
def profileDescriptor (p : Profile) : Word := BitVec.ofBool p.active ++ BitVec.ofNat 7 p.dpi.val ++ p.rgb

/-- LOADDEF (R121): it cannot raise, since DEFAULT_REPORT decodes. -/
def execLoaddef (s : State) : Result :=
  commit s (.ok (s.construct Config.defaultReport.bytes Config.defaultReport.cache))

/-- LOAD (R122): the bytes on WIN, checked in the order of R153, opaque ones stored as they are. -/
def execLoad (s : State) : Result :=
  commit s ((loadCheck s.win).map fun bc => s.construct bc.1 bc.2)

/-- GETPROF (R124). -/
def execGetprof (pid : Nat) (s : State) : Result :=
  answer s ((profileSlot pid).map fun i => profileDescriptor s.cache.prof[i])

/-- GETLED (R125). -/
def execGetled (s : State) : Result := answer s (.ok s.cache.led.descriptor)

/-- SETDPI (R126): the DPI index changes, the active flag stays. -/
def execSetdpi (pid dpi : Nat) (s : State) : Result :=
  commit s do
    let i ← profileSlot pid
    let d ← dpiIndex dpi
    return s.writeProfileDpi i { s.cache.prof[i] with dpi := d }

/-- SETACT (R127): the flag changes, the DPI index stays, and the count is recomputed always (R101). -/
def execSetact (pid : Nat) (active : Bool) (s : State) : Result :=
  commit s do
    let i ← profileSlot pid
    return (s.writeProfileDpi i { s.cache.prof[i] with active := active }).recount

/-- SETRGB (R128): the three colour bytes pass through. -/
def execSetrgb (pid : Nat) (rgb : Word24) (s : State) : Result :=
  commit s do
    let i ← profileSlot pid
    return s.writeProfileRgb i { s.cache.prof[i] with rgb := rgb }

/-- SETLED (R129): all four LED bytes are rewritten, unused argument slots with 0. -/
def execSetled (desc : Word) (s : State) : Result :=
  commit s do
    let v ← ledOperand desc
    return s.writeLed v

end Sys2Proof.Machine
end

