-- ==== Sys2Proof/Machine/FieldCodecs.lean ====
section
/-! DEFINITION. The commands of 41_field_codecs.md, which only compute: DPIENC, DPIDEC, AFFENC, AFFDEC, CNTENC,
CNTDEC. -/

namespace Sys2Proof.Machine

/-- DPIENC (R96). -/
def execDpienc (active : Bool) (dpi : Nat) (s : State) : Result :=
  answer s ((dpiEnc active dpi).map wordOfByte)

/-- DPIDEC (R97): the byte comes from no report, so `loc` is 0. -/
def execDpidec (raw : Byte) (s : State) : Result :=
  answer s ((dpiDec raw 0).map fun ad => dpiPair ad.1 ad.2)

/-- AFFENC (R98). -/
def execAffenc (family id : Nat) (s : State) : Result :=
  answer s do
    let f ← familyOfSel family
    let r ← affEnc f id
    return wordOfByte r

/-- AFFDEC (R99). -/
def execAffdec (family : Nat) (raw : Byte) (s : State) : Result :=
  answer s do
    let f ← familyOfSel family
    if affOk f raw then return wordOfByte (affDec f raw) else .error (.badAffineByte family raw)

/-- CNTENC (R103). -/
def execCntenc (mask : BitVec 5) (s : State) : Result := answer s (.ok (wordOfByte (cntEnc mask)))

/-- CNTDEC (R104). -/
def execCntdec (raw : Byte) (s : State) : Result :=
  answer s ((cntDec raw).map fun n => BitVec.ofNat 32 n)

end Sys2Proof.Machine
end

