-- ==== Sys2Proof/Machine/LedEffect.lean ====
section
/-! DEFINITION. The commands of 42_led_effect_codec.md, LEDENC and LEDDEC, and the eight LED mode bytes, each run
on its own argument bytes as LEDDEC runs it (log 6). -/

namespace Sys2Proof.Machine

/-- LEDENC (R116). -/
def execLedenc (desc : Word) (s : State) : Result :=
  answer s ((ledOperand desc).map fun v => (ledEnc v).word)

/-- LEDDEC (R117). -/
def execLeddec (quad : Word) (s : State) : Result :=
  answer s ((ledDec (quadOfWord quad)).map LedConfig.descriptor)

/-- One row of the mode table run on its argument bytes: `led_dec` after the mode has been recognised (R110), the
configuration answered as its descriptor (R117). -/
def interpretLed (sh : LedShape) (a1 a2 a3 : Byte) (s : State) : Result :=
  answer s ((ledDecAs sh a1 a2 a3).map LedConfig.descriptor)

/-- 0x28, Steady (R108). -/
def execLedSteady (a1 a2 a3 : Byte) (s : State) : Result := interpretLed .steady a1 a2 a3 s

/-- 0x22, Breathe. -/
def execLedBreathe (a1 a2 a3 : Byte) (s : State) : Result := interpretLed .breathe a1 a2 a3 s

/-- 0x42, BlinkEffect of Respiration. -/
def execLedBlinkResp (a1 a2 a3 : Byte) (s : State) : Result := interpretLed (.blinkEffect .respiration) a1 a2 a3 s

/-- 0x44, BlinkEffect of SteadyGlow. -/
def execLedBlinkGlow (a1 a2 a3 : Byte) (s : State) : Result := interpretLed (.blinkEffect .steadyGlow) a1 a2 a3 s

/-- 0x48, BlinkEffect of Neon. -/
def execLedBlinkNeon (a1 a2 a3 : Byte) (s : State) : Result := interpretLed (.blinkEffect .neon) a1 a2 a3 s

/-- 0x82, SteadyEffect of Respiration. -/
def execLedHoldResp (a1 a2 a3 : Byte) (s : State) : Result := interpretLed (.steadyEffect .respiration) a1 a2 a3 s

/-- 0x84, SteadyEffect of SteadyGlow. -/
def execLedHoldGlow (a1 a2 a3 : Byte) (s : State) : Result := interpretLed (.steadyEffect .steadyGlow) a1 a2 a3 s

/-- 0x88, SteadyEffect of Neon. -/
def execLedHoldNeon (a1 a2 a3 : Byte) (s : State) : Result := interpretLed (.steadyEffect .neon) a1 a2 a3 s

end Sys2Proof.Machine
end

