-- ==== Sys2Proof/Machine/RawReport.lean ====
section
/-! DEFINITION. The commands of 40_raw_report.md, which read RPT as bytes: RDRAW, RDBYTE, RDFLD. -/

namespace Sys2Proof.Machine

/-- RDRAW (R79): the whole report on WOUT, in offset order. -/
def execRdraw (s : State) : Result :=
  withReportData (s.rpt.allBytes?) fun bytes => .next (s.complete 0 bytes)

/-- RDBYTE (R80): the byte at an offset, opaque bytes included. -/
def execRdbyte (offset : Nat) (s : State) : Result :=
  match reportOffset offset with
  | .error e => answer s (.error e)
  | .ok o => withReportData (s.rpt.read o) fun b => answer s (.ok (wordOfByte b))

/-- RDFLD (R81): a named field as it stands in RPT, not decoded. -/
def execRdfld (field : Nat) (s : State) : Result :=
  match fieldPlace field with
  | .error e => answer s (.error e)
  | .ok (o, n) => withReportData (s.rpt.memRead o n) fun v => answer s (.ok (BitVec.ofNat 32 v))

end Sys2Proof.Machine
end

