-- ==== Sys2Proof/Machine/StatusAccess.lean ====
section
/-! DEFINITION. The command of 44_status.md: RDSTAT. -/

namespace Sys2Proof.Machine

/-- RDSTAT (R141): STATUS for 0, LAST_INFO for 1; on success the record stays as it was. -/
def execRdstat (reg : Nat) (s : State) : Result :=
  match reg with
  | 0 => .next (s.completeKeepingRecord s.status)
  | 1 => .next (s.completeKeepingRecord s.lastInfo)
  | _ => .next (s.raise (.badSelector reg))

end Sys2Proof.Machine
end

