-- ==== Sys2Proof/Machine/Dispatch.lean ====
section
/-! DEFINITION. One arm for each instruction: the opcode map of 30_encoding.md R58 and the LED mode bytes of
42_led_effect_codec.md R108. -/

namespace Sys2Proof.Machine

def exec (i : Instr) (s : State) : Host.Outcome State Fault Refusal :=
  match i with
  | .loaddef => Sys2Proof.Machine.execLoaddef s
  | .load => Sys2Proof.Machine.execLoad s
  | .rdraw => Sys2Proof.Machine.execRdraw s
  | .rdbyte offset => Sys2Proof.Machine.execRdbyte offset s
  | .rdfld field => Sys2Proof.Machine.execRdfld field s
  | .getprof pid => Sys2Proof.Machine.execGetprof pid s
  | .getled => Sys2Proof.Machine.execGetled s
  | .setdpi pid dpi => Sys2Proof.Machine.execSetdpi pid dpi s
  | .setact pid active => Sys2Proof.Machine.execSetact pid active s
  | .setrgb pid rgb => Sys2Proof.Machine.execSetrgb pid rgb s
  | .setled desc => Sys2Proof.Machine.execSetled desc s
  | .rdstat reg => Sys2Proof.Machine.execRdstat reg s
  | .dpienc active dpi => Sys2Proof.Machine.execDpienc active dpi s
  | .dpidec raw => Sys2Proof.Machine.execDpidec raw s
  | .affenc family id => Sys2Proof.Machine.execAffenc family id s
  | .affdec family raw => Sys2Proof.Machine.execAffdec family raw s
  | .ledenc desc => Sys2Proof.Machine.execLedenc desc s
  | .leddec quad => Sys2Proof.Machine.execLeddec quad s
  | .cntenc mask => Sys2Proof.Machine.execCntenc mask s
  | .cntdec raw => Sys2Proof.Machine.execCntdec raw s
  | .ledSteady a1 a2 a3 => Sys2Proof.Machine.execLedSteady a1 a2 a3 s
  | .ledBreathe a1 a2 a3 => Sys2Proof.Machine.execLedBreathe a1 a2 a3 s
  | .ledBlinkResp a1 a2 a3 => Sys2Proof.Machine.execLedBlinkResp a1 a2 a3 s
  | .ledBlinkGlow a1 a2 a3 => Sys2Proof.Machine.execLedBlinkGlow a1 a2 a3 s
  | .ledBlinkNeon a1 a2 a3 => Sys2Proof.Machine.execLedBlinkNeon a1 a2 a3 s
  | .ledHoldResp a1 a2 a3 => Sys2Proof.Machine.execLedHoldResp a1 a2 a3 s
  | .ledHoldGlow a1 a2 a3 => Sys2Proof.Machine.execLedHoldGlow a1 a2 a3 s
  | .ledHoldNeon a1 a2 a3 => Sys2Proof.Machine.execLedHoldNeon a1 a2 a3 s

end Sys2Proof.Machine
end

