-- ==== Sys2Proof/Machine/Step.lean ====
section
/-! DEFINITION. One step: the block takes what the host does next. It fetches nothing (10_state.md R16): the host
presents one command at a time (R33, R34). -/

namespace Sys2Proof.Machine

/-- A word presented to the block: decode it, then perform it or raise (R66, R110). -/
def runPresented (p : Presented) (s : State) : Host.Outcome State Fault Refusal :=
  match decode p with
  | .ok i => exec i s
  | .error e => .next (s.raise (excOfDecodeError e))

/-- One step. With nothing presented the block waits, and nothing changes (R155, R167). -/
def step (s : State) : Host.Outcome State Fault Refusal :=
  match s.pending with
  | [] => .next s
  | .reset :: rest => .next (State.assertReset rest)
  | .present p win :: rest => runPresented p (s.accept win rest)

/-- The same machine with a table row's word as the next thing the host presents (log 12). -/
def State.withFetchWord (s : State) (nbits w : Nat) : State := s.presentNext (presentedOfTableWord nbits w)

end Sys2Proof.Machine
end

