-- ==== Sys2Proof/Machine/Assembler.lean ====
section
/-! DEFINITION. The assembler syntax of 30_encoding.md: command lines (R73), LED operands (R74), pseudo-instructions
and their expansions (R75). It stands beside the machine: no step uses it. -/

namespace Sys2Proof.Machine

/-! ### Commands and pseudo-instructions -/

/-- A line of R73, a command, or a pseudo-instruction of R75. -/
inductive AsmCommand where
  | core (i : Instr)
  | act (pid : Nat)
  | deact (pid : Nat)
  | rdcount
  | rdstatus
  | rdinfo
  | setprof (pid : Nat) (active : Bool) (dpi : Nat) (rgb : Word24)
  deriving DecidableEq, Repr

/-- The commands a line stands for, in order (R75). -/
def AsmCommand.expand : AsmCommand → List Instr
  | .core i => [i]
  | .act pid => [.setact pid true]
  | .deact pid => [.setact pid false]
  | .rdcount => [.rdfld 1]
  | .rdstatus => [.rdstat 0]
  | .rdinfo => [.rdstat 1]
  | .setprof pid active dpi rgb => [.setact pid active, .setdpi pid dpi, .setrgb pid rgb]

/-- The command word of an instruction; a raw quad is none (R72). -/
def commandWord? (i : Instr) : Option CmdWord :=
  match encode i with
  | .command w => some w
  | .quad _ => none

/-- The words a line assembles to (R73, R75). -/
def AsmCommand.words (c : AsmCommand) : List CmdWord := c.expand.filterMap commandWord?

/-! ### Reading a line -/

/-- The tokens of a line: names, numbers, and the marks of R73 and R74. -/
inductive AsmToken where
  | name (s : List Char)
  | num (n : Nat)
  | comma
  | lpar
  | rpar
  deriving DecidableEq, Repr

/-- The value of a digit in base 10 or 16. -/
def digitValue (c : Char) : Option Nat :=
  if '0' ≤ c ∧ c ≤ '9' then some (c.toNat - '0'.toNat)
  else if 'a' ≤ c ∧ c ≤ 'f' then some (c.toNat - 'a'.toNat + 10)
  else if 'A' ≤ c ∧ c ≤ 'F' then some (c.toNat - 'A'.toNat + 10)
  else none

/-- The number a digit string spells in a base, after the value read so far. -/
def readDigits (base : Nat) : List Char → Nat → Option Nat
  | [], n => some n
  | c :: cs, n =>
    match digitValue c with
    | some d => if d < base then readDigits base cs (n * base + d) else none
    | none => none

/-- A number, decimal or with the prefix `0x` (R73). -/
def readNumber : List Char → Option Nat
  | '0' :: 'x' :: d :: ds => readDigits 16 (d :: ds) 0
  | ds => readDigits 10 ds 0

/-- The token a run of letters and digits spells: a number if it begins with a digit, else a name; nothing for
an empty run. -/
def closeRun (run : List Char) : Option (List AsmToken) :=
  match run with
  | [] => some []
  | c :: cs => if c.isDigit then (readNumber (c :: cs)).map fun n => [.num n] else some [.name (c :: cs)]

/-- The tokens before and after a mark. -/
def joinTokens (a : Option (List AsmToken)) (mid : List AsmToken) (b : Option (List AsmToken)) : Option (List AsmToken) :=
  match a, b with
  | some x, some y => some (x ++ mid ++ y)
  | _, _ => none

/-- The tokens of a line; `;` starts a comment, which ends it (R73, log 13). -/
def tokens : List Char → List Char → Option (List AsmToken)
  | [], run => closeRun run
  | c :: cs, run =>
    if c.isAlphanum then tokens cs (run ++ [c])
    else if c = ';' then closeRun run
    else if c = ' ' ∨ c = '\t' then joinTokens (closeRun run) [] (tokens cs [])
    else if c = ',' then joinTokens (closeRun run) [.comma] (tokens cs [])
    else if c = '(' then joinTokens (closeRun run) [.lpar] (tokens cs [])
    else if c = ')' then joinTokens (closeRun run) [.rpar] (tokens cs [])
    else none

/-- A profile id, `p0` to `p4` (R73). -/
def readProfile (s : List Char) : Option Nat :=
  ["p0".toList, "p1".toList, "p2".toList, "p3".toList, "p4".toList].idxOf? s

/-- A field name of R73, in the order of the field ids of R64. -/
def readField (s : List Char) : Option Nat :=
  ["rate".toList, "count".toList, "dpi0".toList, "dpi1".toList, "dpi2".toList, "dpi3".toList, "dpi4".toList,
   "mode".toList, "arg1".toList, "arg2".toList, "arg3".toList,
   "rgb0".toList, "rgb1".toList, "rgb2".toList, "rgb3".toList, "rgb4".toList].idxOf? s

/-- A family name of R73, in the order of the family ids of R65. -/
def readFamily (s : List Char) : Option Nat :=
  ["bright".toList, "bspeed".toList, "neon".toList, "freq".toList, "times".toList, "hold".toList].idxOf? s

/-- A number of `w` bits (log 13). -/
def readBits (w n : Nat) : Option (BitVec w) := if n < 2 ^ w then some (BitVec.ofNat w n) else none

/-- `0 or 1` (R73). -/
def readFlag : Nat → Option Bool
  | 0 => some false
  | 1 => some true
  | _ => none

/-- A nested effect by its name (R74). -/
def readEffect (name : List Char) (x : Byte) : Option Effect :=
  if name = "resp".toList then some (.respiration x)
  else if name = "glow".toList then some (.steadyGlow x)
  else if name = "neon".toList then some (.neon x)
  else none

/-- An LED operand (R74). -/
def readLed : List AsmToken → Option LedConfig
  | [.name v, .lpar, .num x, .rpar] => do
    let x ← readBits 8 x
    if v = "steady".toList then some (.steady x) else if v = "breathe".toList then some (.breathe x) else none
  | [.name v, .lpar, .num f, .comma, .num t, .comma, .name e, .lpar, .num x, .rpar, .rpar] => do
    let f ← readBits 8 f
    let t ← readBits 8 t
    let x ← readBits 8 x
    let e ← readEffect e x
    if v = "blink".toList then some (.blinkEffect f t e) else none
  | [.name v, .lpar, .num h, .comma, .name e, .lpar, .num x, .rpar, .rpar] => do
    let h ← readBits 8 h
    let x ← readBits 8 x
    let e ← readEffect e x
    if v = "hold".toList then some (.steadyEffect h e) else none
  | _ => none

/-- A mnemonic without operands (R73, R75). -/
def readBare (m : List Char) : Option AsmCommand :=
  if m = "loaddef".toList then some (.core .loaddef)
  else if m = "load".toList then some (.core .load)
  else if m = "rdraw".toList then some (.core .rdraw)
  else if m = "getled".toList then some (.core .getled)
  else if m = "rdcount".toList then some .rdcount
  else if m = "rdstatus".toList then some .rdstatus
  else if m = "rdinfo".toList then some .rdinfo
  else none

/-- A mnemonic with one name: a profile, a field, a status register (R73, R75). -/
def readWithName (m a : List Char) : Option AsmCommand :=
  if m = "getprof".toList then (readProfile a).map fun p => .core (.getprof p)
  else if m = "rdfld".toList then (readField a).map fun f => .core (.rdfld f)
  else if m = "act".toList then (readProfile a).map .act
  else if m = "deact".toList then (readProfile a).map .deact
  else if m = "rdstat".toList then (["status".toList, "info".toList].idxOf? a).map fun r => .core (.rdstat r)
  else none

/-- A mnemonic with one number (R73). -/
def readWithNumber (m : List Char) (n : Nat) : Option AsmCommand :=
  if m = "rdbyte".toList then (readBits 8 n).map fun b => .core (.rdbyte b.toNat)
  else if m = "dpidec".toList then (readBits 8 n).map fun b => .core (.dpidec b)
  else if m = "cntenc".toList then (readBits 5 n).map fun b => .core (.cntenc b)
  else if m = "cntdec".toList then (readBits 8 n).map fun b => .core (.cntdec b)
  else none

/-- A mnemonic with a name and a number: a profile or a family first (R73). -/
def readWithBoth (m a : List Char) (n : Nat) : Option AsmCommand :=
  if m = "setdpi".toList then do
    let p ← readProfile a
    let d ← readBits 8 n
    some (.core (.setdpi p d.toNat))
  else if m = "setact".toList then do
    let p ← readProfile a
    let f ← readFlag n
    some (.core (.setact p f))
  else if m = "setrgb".toList then do
    let p ← readProfile a
    let rgb ← readBits 24 n
    some (.core (.setrgb p rgb))
  else if m = "affenc".toList then do
    let f ← readFamily a
    let id ← readBits 8 n
    some (.core (.affenc f id.toNat))
  else if m = "affdec".toList then do
    let f ← readFamily a
    let raw ← readBits 8 n
    some (.core (.affdec f raw))
  else none

/-- A line's tokens as a command (R73, R74, R75). -/
def readTokens : List AsmToken → Option AsmCommand
  | [.name m] => readBare m
  | [.name m, .name a] => readWithName m a
  | [.name m, .num n] => readWithNumber m n
  | [.name m, .name a, .comma, .num n] => readWithBoth m a n
  | [.name m, .num a, .comma, .num d] =>
    if m = "dpienc".toList then do
      let a ← readFlag a
      let d ← readBits 8 d
      some (.core (.dpienc a d.toNat))
    else none
  | [.name m, .num q, .comma, .num a, .comma, .num b, .comma, .num c] =>
    if m = "leddec".toList then do
      let q ← readBits 8 q
      let a ← readBits 8 a
      let b ← readBits 8 b
      let c ← readBits 8 c
      some (.core (.leddec (packQuad q a b c)))
    else none
  | [.name m, .name p, .comma, .num a, .comma, .num d, .comma, .num rgb] =>
    if m = "setprof".toList then do
      let p ← readProfile p
      let a ← readFlag a
      let d ← readBits 8 d
      let rgb ← readBits 24 rgb
      some (.setprof p a d.toNat rgb)
    else none
  | .name m :: operand =>
    if m = "setled".toList then (readLed operand).map fun v => .core (.setled v.descriptor)
    else if m = "ledenc".toList then (readLed operand).map fun v => .core (.ledenc v.descriptor)
    else none
  | _ => none

/-- Assemble one line: the words it stands for, none when it is no line of R73 to R75. A line with nothing but
blanks and a comment stands for no word (log 13). -/
def assembleLine (line : List Char) : Option (List CmdWord) :=
  match tokens line [] with
  | none => none
  | some [] => some []
  | some ts => (readTokens ts).map AsmCommand.words

end Sys2Proof.Machine
end

