-- ==== Sys2Proof/Safety.lean ====
section
/-! DEFINITION. What the claims call a good state and a safe run: the facts of 10_state.md and 60_exceptions.md that
hold after every command. -/

namespace Sys2Proof.Machine

/-- Lockstep: C is `decodeAll` of RPT (R29, R133). It holds only where RPT has its 154 bytes. -/
def Lockstep (s : State) : Prop := s.rpt.toReport?.map decodeAll = some (.ok s.cache)

/-- The causes R148 gives each LAST_CODE; 0 stands for no exception and has none. -/
def causesOf (code : Nat) : List Nat :=
  match code with
  | 0 => [0]
  | 1 => [0x01, 0x02, 0x03, 0x04, 0x05, 0x06, 0x07]
  | 2 => [0x10, 0x11]
  | 3 => [0x20, 0x21]
  | _ => []

/-- STATUS and LAST_INFO hold only what R31, R32, R147, R148 and R151 allow: the reserved bits read 0, the
cause is one of the code's, no exception leaves a detail, and the kind of the last exception has been seen. -/
def recordOk (status lastInfo : Word) : Bool :=
  bitsOf status 31 11 == 0
  && (causesOf (lastCode status).toNat).contains (bitsOf lastInfo 31 24)
  && (if lastCode status = 0 then lastInfo == 0 else status.getLsbD (7 + (lastCode status).toNat))

/-- A response is one R33, R147 and R150 allow: a known code, no data and no bytes from a command that raised,
no bytes or a whole report on WOUT. -/
def responseOk (r : Response) : Bool :=
  decide (r.code.toNat ≤ 3)
  && (r.code == 0 || (r.data == 0 && r.wout.isEmpty))
  && (r.wout.isEmpty || r.wout.length == reportSize)

/-- The invariant of the machine. -/
structure Inv (s : State) : Prop where
  /-- RPT is the 154 bytes of the address space, in the memory's one form (R18, R38). -/
  report : s.rpt.wf = true
  /-- C is the decode of RPT (R29). -/
  lockstep : Lockstep s
  /-- The error record is legal (R31, R32, R151). -/
  record : recordOk s.status s.lastInfo = true
  /-- The last response is legal (R33, R150). -/
  response : ∀ r, s.resp = some r → responseOk r = true

/-! ### What the claims say of a command's end -/

/-- The host's side is untouched: only a step moves it (R16, R33). -/
structure SamePorts (s t : State) : Prop where
  pending : t.pending = s.pending
  win : t.win = s.win
  issued : t.issued = s.issued

/-- RPT, byte for byte, and C are as before. -/
structure KeepsReport (s t : State) : Prop where
  bytes : ∀ o, t.rpt.read o = s.rpt.read o
  cells : t.rpt = s.rpt
  cache : t.cache = s.cache

/-- The command ended in success with this result word and these bytes on WOUT: RESP_CODE, LAST_CODE and
LAST_INFO are 0 and every other bit of STATUS is as before (R151). -/
structure Succeeds (s t : State) (data : Word) (wout : List Byte) : Prop where
  resp : t.resp = some ⟨0, data, wout⟩
  lastCode : lastCode t.status = 0
  kept : ∀ b, 8 ≤ b → t.status.getLsbD b = s.status.getLsbD b
  lastInfo : t.lastInfo = 0
  ports : SamePorts s t

/-- The command raised the exception of this code, cause and detail: no data and no bytes, RPT and C as before,
LAST_CODE and LAST_INFO as R151 says, bit `7 + code` of STATUS set and every other bit above LAST_CODE as before
(R150, R151). -/
structure Raises (s t : State) (code cause detail : Nat) : Prop where
  resp : t.resp = some ⟨BitVec.ofNat 8 code, 0, []⟩
  lastCode : (lastCode t.status).toNat = code
  sticky : t.status.getLsbD (7 + code) = true
  kept : ∀ b, 8 ≤ b → b ≠ 7 + code → t.status.getLsbD b = s.status.getLsbD b
  lastInfo : t.lastInfo.toNat = cause * 2 ^ 24 + detail
  report : KeepsReport s t
  ports : SamePorts s t

/-- The count byte agrees with the active flags (R132). -/
def CountFresh (s : State) : Prop := s.rpt.read 71 = some (cntEnc (activeMask s.cache))

/-- The states a run reaches, whatever the host presents on the way: from reset, by steps, the host adding what
it likes to what it will do (R34, R50). -/
inductive Reachable : State → Prop where
  | reset : Reachable State.reset
  | step {s t : State} : Reachable s → Machine.step s = .next t → Reachable t
  | host {s : State} (inputs : List Input) : Reachable s → Reachable { s with pending := inputs }

/-- A run of `k` steps ends in a next state. -/
def RunsSafely (s : State) (k : Nat) : Prop := ∃ t, core.run k s = .next t

end Sys2Proof.Machine
end

