-- ==== Sys2Proof/Certificates/Slice0/Obligations.lean ====
section
/-! DEFINITION. The statements for the provers. Each docstring names the rules of spec/ it speaks of; where a
statement rests on a choice of the model's own, the docstring names the log entry. -/

open Sys2Proof Sys2Proof.Machine

namespace Sys2Proof.Claims

/-! ### Terms the statements use -/

/-- The assigned opcodes (R54). -/
def assignedOpcodes : List Nat :=
  [0x01, 0x02, 0x03, 0x04, 0x05, 0x06, 0x07, 0x08, 0x09, 0x0A, 0x0B, 0x0C,
   0x10, 0x11, 0x12, 0x13, 0x14, 0x15, 0x16, 0x17]

/-- The opcodes that do not use SEL (R59). -/
def opcodesWithoutSelector : List Nat := [0x01, 0x02, 0x03, 0x04, 0x07, 0x0B, 0x10, 0x11, 0x14, 0x15, 0x16, 0x17]

/-- The 128 opaque offsets (R25). -/
def opaqueOffsets : List Nat :=
  List.range' 0 8 ++ List.range' 9 62 ++ [72, 73] ++ List.range' 79 14 ++ [97, 98, 99] ++ List.range' 115 39

/-- The raw value of an id in a slot of this family, 0 in an unused slot, as a number (R91, R112). -/
def slotCode (fam : Option Family) (id : Byte) : Nat :=
  match fam with
  | none => 0
  | some f => id.toNat * f.step + f.base

/-- The argument byte is the raw value of the id where the slot is used; any byte where it is not (R111). -/
def slotHolds (fam : Option Family) (id arg : Byte) : Prop := fam.isSome = true → arg.toNat = slotCode fam id

/-- The argument byte is a code of the slot's family, or the slot is unused (R110). -/
def slotDecodes (fam : Option Family) (arg : Byte) : Prop := ∀ f, fam = some f → affOk f arg = true

/-- The descriptor of a shape and its ids as a number (R61). -/
def descriptorNumber (sh : LedShape) (x1 x2 x3 : Byte) : Nat :=
  sh.variant * 2 ^ 30 + sh.effectCode * 2 ^ 28 + x1.toNat * 2 ^ 16 + x2.toNat * 2 ^ 8 + x3.toNat

/-- The LED row of the opcode table for a shape (R108). -/
def ledInstr : LedShape → Byte → Byte → Byte → Instr
  | .steady => .ledSteady
  | .breathe => .ledBreathe
  | .blinkEffect .respiration => .ledBlinkResp
  | .blinkEffect .steadyGlow => .ledBlinkGlow
  | .blinkEffect .neon => .ledBlinkNeon
  | .steadyEffect .respiration => .ledHoldResp
  | .steadyEffect .steadyGlow => .ledHoldGlow
  | .steadyEffect .neon => .ledHoldNeon

/-- The code and cause pairs R149 gives each command; an LED row has those of LEDDEC after its mode is known. -/
def allowedCauses : Instr → List (Nat × Nat)
  | .loaddef | .rdraw | .getled | .cntenc _ => []
  | .load => [(1, 0x01), (1, 0x02), (1, 0x03), (1, 0x04)]
  | .rdbyte _ => [(2, 0x11)]
  | .rdfld _ | .getprof _ | .setact _ _ | .setrgb _ _ | .rdstat _ => [(2, 0x10)]
  | .setdpi _ _ => [(1, 0x05), (2, 0x10)]
  | .setled _ | .ledenc _ => [(2, 0x11)]
  | .dpienc _ _ => [(1, 0x05)]
  | .dpidec _ => [(1, 0x02)]
  | .affenc _ _ => [(2, 0x10), (2, 0x11)]
  | .affdec _ _ => [(1, 0x06), (2, 0x10)]
  | .leddec _ => [(1, 0x03), (1, 0x04)]
  | .cntdec _ => [(1, 0x07)]
  | .ledSteady _ _ _ | .ledBreathe _ _ _ | .ledBlinkResp _ _ _ | .ledBlinkGlow _ _ _ | .ledBlinkNeon _ _ _
  | .ledHoldResp _ _ _ | .ledHoldGlow _ _ _ | .ledHoldNeon _ _ _ => [(1, 0x04)]

/-- The commands that read RPT or C and write neither (R47). -/
def isReader : Instr → Bool
  | .rdraw | .rdbyte _ | .rdfld _ | .getprof _ | .getled => true
  | _ => false

/-- The commands that only compute, and the LED rows (R106, R116, R117). -/
def isCodec : Instr → Bool
  | .dpienc _ _ | .dpidec _ | .affenc _ _ | .affdec _ _ | .ledenc _ | .leddec _ | .cntenc _ | .cntdec _
  | .ledSteady _ _ _ | .ledBreathe _ _ _ | .ledBlinkResp _ _ _ | .ledBlinkGlow _ _ _ | .ledBlinkNeon _ _ _
  | .ledHoldResp _ _ _ | .ledHoldGlow _ _ _ | .ledHoldNeon _ _ _ => true
  | _ => false

/-- The DPI byte of profile `i` in a report, offset 74 + i (R19). -/
def dpiByteAt (B : Report) (i : Fin 5) : Byte := B[74 + i.val]'(by have := i.isLt; simp only [reportSize]; omega)

/-- Colour byte `k` of profile `i` in a report, offset 100 + 3i + k (R24). -/
def rgbByteAt (B : Report) (i : Fin 5) (k : Fin 3) : Byte :=
  B[100 + 3 * i.val + k.val]'(by have := i.isLt; have := k.isLt; simp only [reportSize]; omega)

/-- Bits 6:0 of every DPI byte of a report are not zero (R89, R123). -/
def dpiBytesOk (B : Report) : Prop := ∀ i : Fin 5, bitsOf (dpiByteAt B i) 6 0 ≠ 0

/-- The cache holds what the report says: flag, index and colour of every profile, and the LED slot (R22, R24,
R27, R28). -/
structure CacheOf (B : Report) (c : Cache) (v : LedConfig) : Prop where
  active : ∀ i : Fin 5, c.prof[i].active = !(dpiByteAt B i).getLsbD 7
  dpi : ∀ i : Fin 5, c.prof[i].dpi.val + 1 = bitsOf (dpiByteAt B i) 6 0
  rgb : ∀ i : Fin 5, c.prof[i].rgb.toNat =
    (rgbByteAt B i 0).toNat * 65536 + (rgbByteAt B i 1).toNat * 256 + (rgbByteAt B i 2).toNat
  led : c.led = v

end Sys2Proof.Claims

open Sys2Proof.Claims

/-! ### Encoding -/

/-- R53 to R59, R62, R108: no operand bit of any instruction is lost. -/
def Obligations.DecodeInvertsEncode : Prop :=
  ∀ i : Instr, i.wellFormed = true → decode (encode i) = .ok i

/-- R57, R66, R68: a word that is accepted is the encoding of the instruction it decodes to, and of no other. -/
def Obligations.EncodeInvertsDecode : Prop :=
  ∀ (p : Presented) (i : Instr), decode p = .ok i → i.wellFormed = true ∧ encode i = p

/-- The nine words of R76, in its order; the words R96 and R141 give for `dpienc 0, 4` and `rdstat info`; and the four
LED bytes of 95_test_vectors.md E3, as a raw quad (log 6): each decodes to the instruction it stands for. -/
def Obligations.SpecWordsDecode : Prop :=
  decode (.command 0x0200000000000000) = .ok .load ∧
  decode (.command 0x0902000000000000) = .ok (.setact 2 false) ∧
  decode (.command 0x0802000000000028) = .ok (.setdpi 2 40) ∧
  decode (.command 0x0A04000000123456) = .ok (.setrgb 4 0x123456) ∧
  decode (.command 0x0B00000080050302) = .ok (.setled 0x80050302) ∧
  decode (.command 0x0B000000E0010001) = .ok (.setled 0xE0010001) ∧
  decode (.command 0x050C000000000000) = .ok (.rdfld 12) ∧
  decode (.command 0x120000000000000A) = .ok (.affenc 0 10) ∧
  decode (.command 0x1500000042050322) = .ok (.leddec 0x42050322) ∧
  decode (.command 0x1000000000000004) = .ok (.dpienc false 4) ∧
  decode (.command 0x0C01000000000000) = .ok (.rdstat 1) ∧
  decode (.quad 0x42050322) = .ok (.ledBlinkResp 5 3 0x22)

/-- R67: an opcode that is not assigned raises IllegalCommand, cause 0x20, with the opcode as detail. -/
def Obligations.UnassignedOpcodesRaise : Prop :=
  ∀ (w : CmdWord) (s : State),
    bitsOf w 63 56 = 0 ∨ (0x0D ≤ bitsOf w 63 56 ∧ bitsOf w 63 56 ≤ 0x0F) ∨ 0x18 ≤ bitsOf w 63 56 →
    ∃ t, runPresented (.command w) s = .next t ∧ Raises s t 3 0x20 (bitsOf w 63 56)

/-- R68: an assigned opcode with a bit under its MASK that differs from MATCH raises IllegalCommand, cause 0x21,
detail 0. -/
def Obligations.MaskMismatchRaises : Prop :=
  ∀ (row : CommandRow) (w : CmdWord) (s : State), row ∈ commandTable →
    bitsOf w 63 56 = bitsOf row.match_ 63 56 → w &&& row.mask ≠ row.match_ →
    ∃ t, runPresented (.command w) s = .next t ∧ Raises s t 3 0x21 0

/-- R56: a nonzero RSV in a word of an assigned opcode raises IllegalCommand, cause 0x21. An unassigned opcode is
reported before it (R66). -/
def Obligations.ReservedFieldRaises : Prop :=
  ∀ (w : CmdWord) (s : State), bitsOf w 63 56 ∈ assignedOpcodes → bitsOf w 47 32 ≠ 0 →
    ∃ t, runPresented (.command w) s = .next t ∧ Raises s t 3 0x21 0

/-- R55: a selector out of its opcode's range raises ContractViolation, cause 0x10, whatever the DATA operand; a
nonzero SEL of an opcode that does not use it raises IllegalCommand, cause 0x21. -/
def Obligations.SelectorRules : Prop :=
  (∀ (s : State) (sel : Nat), sel < 256 →
    (15 < sel → ∃ t, exec (.rdfld sel) s = .next t ∧ Raises s t 2 0x10 sel) ∧
    (4 < sel → ∃ t, exec (.getprof sel) s = .next t ∧ Raises s t 2 0x10 sel) ∧
    (4 < sel → ∀ d, ∃ t, exec (.setdpi sel d) s = .next t ∧ Raises s t 2 0x10 sel) ∧
    (4 < sel → ∀ a, ∃ t, exec (.setact sel a) s = .next t ∧ Raises s t 2 0x10 sel) ∧
    (4 < sel → ∀ c, ∃ t, exec (.setrgb sel c) s = .next t ∧ Raises s t 2 0x10 sel) ∧
    (1 < sel → ∃ t, exec (.rdstat sel) s = .next t ∧ Raises s t 2 0x10 sel) ∧
    (5 < sel → ∀ id, ∃ t, exec (.affenc sel id) s = .next t ∧ Raises s t 2 0x10 sel) ∧
    (5 < sel → ∀ r, ∃ t, exec (.affdec sel r) s = .next t ∧ Raises s t 2 0x10 sel)) ∧
  (∀ (w : CmdWord) (s : State), bitsOf w 63 56 ∈ opcodesWithoutSelector → bitsOf w 55 48 ≠ 0 →
    ∃ t, runPresented (.command w) s = .next t ∧ Raises s t 3 0x21 0)

/-! ### Operand violations -/

/-- R80, R87, R89, R92, R97 to R99, R102, R104, R116, R126, R129, R148: a DATA operand out of its range raises, with
the cause and detail of R148. -/
def Obligations.OperandViolationsRaise : Prop :=
  ∀ s : State,
    (∀ o, 153 < o → o < 256 → ∃ t, exec (.rdbyte o) s = .next t ∧ Raises s t 2 0x11 o) ∧
    (∀ (i : Fin 5) d, 126 < d → d < 256 → ∃ t, exec (.setdpi i.val d) s = .next t ∧ Raises s t 1 0x05 d) ∧
    (∀ a d, 126 < d → d < 256 → ∃ t, exec (.dpienc a d) s = .next t ∧ Raises s t 1 0x05 d) ∧
    (∀ r, bitsOf r 6 0 = 0 → ∃ t, exec (.dpidec r) s = .next t ∧ Raises s t 1 0x02 r.toNat) ∧
    (∀ sel f id, familyOfSel sel = .ok f → f.hasId id = false → id < 256 →
      ∃ t, exec (.affenc sel id) s = .next t ∧ Raises s t 2 0x11 id) ∧
    (∀ sel f r, familyOfSel sel = .ok f → affOk f r = false →
      ∃ t, exec (.affdec sel r) s = .next t ∧ Raises s t 1 0x06 (sel * 256 + r.toNat)) ∧
    (∀ r : Byte, r.toNat < 0x20 ∨ 0x25 < r.toNat → ∃ t, exec (.cntdec r) s = .next t ∧ Raises s t 1 0x07 r.toNat) ∧
    (∀ d, descOk d = false → ∃ t, exec (.setled d) s = .next t ∧ Raises s t 2 0x11 (bitsOf d 23 0)) ∧
    (∀ d, descOk d = false → ∃ t, exec (.ledenc d) s = .next t ∧ Raises s t 2 0x11 (bitsOf d 23 0))

/-- R110, R117: LEDDEC checks the mode, then the used arguments 1, 2, 3, and reports the first that fails with its
report offset. -/
def Obligations.LeddecChecksInOrder : Prop :=
  ∀ (m a1 a2 a3 : Byte) (s : State),
    ((∀ sh : LedShape, sh.row.mode ≠ m) →
      ∃ t, exec (.leddec (packQuad m a1 a2 a3)) s = .next t ∧ Raises s t 1 0x03 (93 * 256 + m.toNat)) ∧
    (∀ sh : LedShape, sh.row.mode = m →
      (∀ f, sh.row.fam1 = some f → affOk f a1 = false →
        ∃ t, exec (.leddec (packQuad m a1 a2 a3)) s = .next t ∧ Raises s t 1 0x04 (94 * 256 + a1.toNat)) ∧
      (∀ f, slotDecodes sh.row.fam1 a1 → sh.row.fam2 = some f → affOk f a2 = false →
        ∃ t, exec (.leddec (packQuad m a1 a2 a3)) s = .next t ∧ Raises s t 1 0x04 (95 * 256 + a2.toNat)) ∧
      (slotDecodes sh.row.fam1 a1 → slotDecodes sh.row.fam2 a2 → affOk sh.row.fam3 a3 = false →
        ∃ t, exec (.leddec (packQuad m a1 a2 a3)) s = .next t ∧ Raises s t 1 0x04 (96 * 256 + a3.toNat)))

/-- R153: LOAD checks the length, then the five DPI bytes, then the mode, then the used arguments, and reports the
first that fails; and the example R153 gives. -/
def Obligations.LoadChecksInOrder : Prop :=
  (∀ s : State, s.win.length ≠ 154 →
    ∃ t, exec .load s = .next t ∧ Raises s t 1 0x01 (min s.win.length 0xFFFFFF)) ∧
  (∀ (s : State) (B : Report), s.win = B.toList →
    (∀ i : Fin 5, bitsOf (dpiByteAt B i) 6 0 = 0 → (∀ j : Fin 5, j < i → bitsOf (dpiByteAt B j) 6 0 ≠ 0) →
      ∃ t, exec .load s = .next t ∧ Raises s t 1 0x02 ((74 + i.val) * 256 + (dpiByteAt B i).toNat)) ∧
    (dpiBytesOk B → (∀ sh : LedShape, sh.row.mode ≠ B[93]) →
      ∃ t, exec .load s = .next t ∧ Raises s t 1 0x03 (93 * 256 + B[93].toNat)) ∧
    (∀ sh : LedShape, dpiBytesOk B → sh.row.mode = B[93] →
      (∀ f, sh.row.fam1 = some f → affOk f B[94] = false →
        ∃ t, exec .load s = .next t ∧ Raises s t 1 0x04 (94 * 256 + B[94].toNat)) ∧
      (∀ f, slotDecodes sh.row.fam1 B[94] → sh.row.fam2 = some f → affOk f B[95] = false →
        ∃ t, exec .load s = .next t ∧ Raises s t 1 0x04 (95 * 256 + B[95].toNat)) ∧
      (slotDecodes sh.row.fam1 B[94] → slotDecodes sh.row.fam2 B[95] → affOk sh.row.fam3 B[96] = false →
        ∃ t, exec .load s = .next t ∧ Raises s t 1 0x04 (96 * 256 + B[96].toNat))) ∧
    (bitsOf B[77] 6 0 = 0 → (∀ j : Fin 5, j < 3 → bitsOf (dpiByteAt B j) 6 0 ≠ 0) → (∀ sh : LedShape, sh.row.mode ≠ B[93]) →
      ∃ t, exec .load s = .next t ∧ Raises s t 1 0x02 (0x4D00 + B[77].toNat)))

/-! ### Construction and reset -/

/-- R122, R123: a list of 154 bytes with legal DPI and LED bytes loads: RPT becomes those bytes, opaque ones
included, and C their decode. -/
def Obligations.LoadStoresTheReport : Prop :=
  ∀ (s : State) (B : Report) (v : LedConfig), s.win = B.toList → dpiBytesOk B → ledDec (quadOf B) = .ok v →
    ∃ t, exec .load s = .next t ∧ Succeeds s t 0 [] ∧
      (∀ (o : Nat) (h : o < 154), t.rpt.read o = some B[o]) ∧ (∀ o, 154 ≤ o → t.rpt.read o = none) ∧
      CacheOf B t.cache v

/-- R168, with R121: LOADDEF completes in every state and leaves RPT and C as reset leaves them; it clears
LAST_CODE and LAST_INFO and keeps the sticky bits, where reset clears all of the record. -/
def Obligations.LoaddefAgreesWithReset : Prop :=
  ∀ (s : State) (rest : List Input), ∃ t u, exec .loaddef s = .next t ∧ step { s with pending := .reset :: rest } = .next u ∧
    t.rpt = u.rpt ∧ t.cache = u.cache ∧
    lastCode t.status = 0 ∧ t.lastInfo = 0 ∧ (∀ b, 8 ≤ b → t.status.getLsbD b = s.status.getLsbD b) ∧
    u.status = 0 ∧ u.lastInfo = 0 ∧
    t.resp = some ⟨0, 0, []⟩ ∧ SamePorts s t

/-- R35, R167: the values reset leaves, at power-on and when the host asserts it; no response is driven. That what
the host does next is kept, and the number of the next command is 0, is the model's own (log 7, log 9). -/
def Obligations.ResetValues : Prop :=
  (∀ (o : Nat) (h : o < 154), State.reset.rpt.read o = some Config.defaultReport.bytes[o]) ∧
  decodeAll Config.defaultReport.bytes = .ok State.reset.cache ∧
  State.reset.status = 0 ∧ State.reset.lastInfo = 0 ∧ State.reset.resp = none ∧
  (∀ (s : State) (rest : List Input), s.pending = .reset :: rest →
    ∃ t, step s = .next t ∧ (∀ (o : Nat) (h : o < 154), t.rpt.read o = some Config.defaultReport.bytes[o]) ∧
      decodeAll Config.defaultReport.bytes = .ok t.cache ∧ t.status = 0 ∧ t.lastInfo = 0 ∧ t.resp = none ∧
      t.pending = rest ∧ t.issued = 0)

/-! ### Reading -/

/-- R79: RDRAW drives the 154 bytes of RPT in offset order and changes nothing but the record. The premise is the
first part of the model's invariant (log 8). -/
def Obligations.RdrawDrivesTheReport : Prop :=
  ∀ s : State, s.rpt.wf = true →
    ∃ t L, exec .rdraw s = .next t ∧ Succeeds s t 0 L ∧ KeepsReport s t ∧
      L.length = 154 ∧ ∀ o, o < 154 → L[o]? = s.rpt.read o

/-- R80: RDBYTE answers the byte at an offset up to 153. -/
def Obligations.RdbyteReadsTheByte : Prop :=
  ∀ (s : State) (o : Nat), s.rpt.wf = true → o ≤ 153 →
    ∃ t b, s.rpt.read o = some b ∧ exec (.rdbyte o) s = .next t ∧ Succeeds s t (BitVec.ofNat 32 b.toNat) [] ∧
      KeepsReport s t

/-- R64, R81: RDFLD answers the raw byte of each one-byte field, and the three colour bytes with the first most
significant. -/
def Obligations.RdfldReadsTheField : Prop :=
  ∀ s : State, s.rpt.wf = true →
    (∀ fo ∈ [(0, 8), (1, 71), (2, 74), (3, 75), (4, 76), (5, 77), (6, 78), (7, 93), (8, 94), (9, 95), (10, 96)],
      ∃ t b, s.rpt.read fo.2 = some b ∧ exec (.rdfld fo.1) s = .next t ∧
        Succeeds s t (BitVec.ofNat 32 b.toNat) [] ∧ KeepsReport s t) ∧
    (∀ i : Fin 5, ∃ (t : State) (c0 c1 c2 : Byte), s.rpt.read (100 + 3 * i.val) = some c0 ∧
      s.rpt.read (101 + 3 * i.val) = some c1 ∧ s.rpt.read (102 + 3 * i.val) = some c2 ∧
      exec (.rdfld (11 + i.val)) s = .next t ∧
      Succeeds s t (BitVec.ofNat 32 (c0.toNat * 65536 + c1.toNat * 256 + c2.toNat)) [] ∧ KeepsReport s t)

/-- R60, R124: GETPROF answers the profile descriptor: active in bit 31, not inverted, dpi in [30:24], rgb in
[23:0]. -/
def Obligations.GetprofReturnsTheSlot : Prop :=
  ∀ (s : State) (i : Fin 5),
    ∃ t, exec (.getprof i.val) s = .next t ∧ KeepsReport s t ∧
      Succeeds s t (BitVec.ofNat 32
        (s.cache.prof[i].active.toNat * 2 ^ 31 + s.cache.prof[i].dpi.val * 2 ^ 24 + s.cache.prof[i].rgb.toNat)) []

/-- R61, R125: GETLED answers the descriptor of C.led, which is a valid one wherever C is the decode of RPT. -/
def Obligations.GetledReturnsTheDescriptor : Prop :=
  ∀ s : State, ∃ (t : State) (d : Word), exec .getled s = .next t ∧ KeepsReport s t ∧ Succeeds s t d [] ∧
    d.toNat = descriptorNumber s.cache.led.shape s.cache.led.id1 s.cache.led.id2 s.cache.led.id3 ∧
    (Lockstep s → descOk d = true)

/-- R141: RDSTAT answers STATUS or LAST_INFO and leaves both as they were. -/
def Obligations.RdstatReadsTheRecord : Prop :=
  ∀ s : State, ∃ t u, exec (.rdstat 0) s = .next t ∧ exec (.rdstat 1) s = .next u ∧
    t.resp = some ⟨0, s.status, []⟩ ∧ u.resp = some ⟨0, s.lastInfo, []⟩ ∧
    t.status = s.status ∧ t.lastInfo = s.lastInfo ∧ KeepsReport s t ∧ SamePorts s t ∧
    u.status = s.status ∧ u.lastInfo = s.lastInfo ∧ KeepsReport s u ∧ SamePorts s u

/-- R47: RDRAW, RDBYTE, RDFLD, GETPROF and GETLED have no side effect on RPT or C, answer the same when repeated,
and on success leave LAST_CODE and LAST_INFO 0. -/
def Obligations.ReadersAreIdempotent : Prop :=
  ∀ (i : Instr) (s t : State), isReader i = true → exec i s = .next t →
    KeepsReport s t ∧ (∃ u, exec i t = .next u ∧ u.resp = t.resp) ∧
    (∀ r, t.resp = some r → r.code = 0 → lastCode t.status = 0 ∧ t.lastInfo = 0)

/-! ### Mutators -/

/-- R126: SETDPI writes the DPI index of one slot and its byte, keeping the active flag, and nothing else. -/
def Obligations.SetdpiChangesOneProfile : Prop :=
  ∀ (s : State) (i : Fin 5) (d : DpiIndex),
    ∃ t, exec (.setdpi i.val d.val) s = .next t ∧ Succeeds s t 0 [] ∧
      t.rpt.read (dpiOffset i) = some (BitVec.ofNat 8 ((if s.cache.prof[i].active then 0 else 128) + d.val + 1)) ∧
      (∀ o, o ≠ dpiOffset i → t.rpt.read o = s.rpt.read o) ∧
      t.cache.prof[i] = { s.cache.prof[i] with dpi := d } ∧
      (∀ j : Fin 5, j ≠ i → t.cache.prof[j] = s.cache.prof[j]) ∧ t.cache.led = s.cache.led

/-- R101, R127: SETACT writes the active flag of one slot, inverted in bit 7 of its byte, keeps the DPI index, and
stores the number of active profiles plus 0x20 at offset 71, also when the flag did not change. -/
def Obligations.SetactChangesFlagAndCount : Prop :=
  ∀ (s : State) (i : Fin 5) (a : Bool),
    ∃ t, exec (.setact i.val a) s = .next t ∧ Succeeds s t 0 [] ∧
      t.rpt.read (dpiOffset i) = some (BitVec.ofNat 8 ((if a then 0 else 128) + s.cache.prof[i].dpi.val + 1)) ∧
      t.rpt.read 71 = some (BitVec.ofNat 8 (0x20 + (List.finRange 5).countP fun j => t.cache.prof[j].active)) ∧
      (∀ o, o ≠ dpiOffset i → o ≠ 71 → t.rpt.read o = s.rpt.read o) ∧
      t.cache.prof[i] = { s.cache.prof[i] with active := a } ∧
      (∀ j : Fin 5, j ≠ i → t.cache.prof[j] = s.cache.prof[j]) ∧ t.cache.led = s.cache.led

/-- R105, R128: SETRGB passes the three colour bytes through to the slot and to its three offsets. -/
def Obligations.SetrgbPassesTheColour : Prop :=
  ∀ (s : State) (i : Fin 5) (rgb : Word24),
    ∃ t, exec (.setrgb i.val rgb) s = .next t ∧ Succeeds s t 0 [] ∧
      t.rpt.read (rgbOffset i) = some (rgb.extractLsb' 16 8) ∧
      t.rpt.read (rgbOffset i + 1) = some (rgb.extractLsb' 8 8) ∧
      t.rpt.read (rgbOffset i + 2) = some (rgb.extractLsb' 0 8) ∧
      (∀ o, o < rgbOffset i ∨ rgbOffset i + 3 ≤ o → t.rpt.read o = s.rpt.read o) ∧
      t.cache.prof[i] = { s.cache.prof[i] with rgb := rgb } ∧
      (∀ j : Fin 5, j ≠ i → t.cache.prof[j] = s.cache.prof[j]) ∧ t.cache.led = s.cache.led

/-- R129: SETLED of a valid descriptor sets the LED slot and rewrites the four LED bytes, unused slots with 0. -/
def Obligations.SetledRewritesTheLedBytes : Prop :=
  ∀ (s : State) (sh : LedShape) (x1 x2 x3 : Byte),
    slotHasId sh.row.fam1 x1 = true → slotHasId sh.row.fam2 x2 = true → sh.row.fam3.hasId x3.toNat = true →
    ∃ t, exec (.setled (BitVec.ofNat 32 (descriptorNumber sh x1 x2 x3))) s = .next t ∧ Succeeds s t 0 [] ∧
      t.cache.led = sh.build x1 x2 x3 ∧ (∀ j : Fin 5, t.cache.prof[j] = s.cache.prof[j]) ∧
      t.rpt.read 93 = some sh.row.mode ∧
      t.rpt.read 94 = some (BitVec.ofNat 8 (slotCode sh.row.fam1 x1)) ∧
      t.rpt.read 95 = some (BitVec.ofNat 8 (slotCode sh.row.fam2 x2)) ∧
      t.rpt.read 96 = some (BitVec.ofNat 8 (slotCode (some sh.row.fam3) x3)) ∧
      (∀ o, o < 93 ∨ 96 < o → t.rpt.read o = s.rpt.read o)

/-- R131: each mutator writes its own offsets and no other byte of RPT. -/
def Obligations.MutatorsTouchOnlyTheirFields : Prop :=
  ∀ (s t : State) (pid o : Nat),
    (∀ d, exec (.setdpi pid d) s = .next t → o ≠ 74 + pid → t.rpt.read o = s.rpt.read o) ∧
    (∀ a, exec (.setact pid a) s = .next t → o ≠ 74 + pid → o ≠ 71 → t.rpt.read o = s.rpt.read o) ∧
    (∀ c, exec (.setrgb pid c) s = .next t → o < 100 + 3 * pid ∨ 102 + 3 * pid < o → t.rpt.read o = s.rpt.read o) ∧
    (∀ d, exec (.setled d) s = .next t → o < 93 ∨ 96 < o → t.rpt.read o = s.rpt.read o)

/-- R25: there are 128 opaque bytes, and no command but LOADDEF and LOAD writes one of them; nor does any other
write report_rate, offset 8. -/
def Obligations.OnlyLoadsWriteOpaqueBytes : Prop :=
  opaqueOffsets.length = 128 ∧
  ∀ (i : Instr) (s t : State) (o : Nat), i ≠ .load → i ≠ .loaddef → exec i s = .next t →
    o ∈ opaqueOffsets ∨ o = 8 → t.rpt.read o = s.rpt.read o

/-- R132: the count byte agrees with the flags from the first SETACT after a LOAD or LOADDEF on; before it, it is
whatever they stored. -/
def Obligations.CountFreshFromSetact : Prop :=
  (∀ (s t : State) (i : Fin 5) (a : Bool), exec (.setact i.val a) s = .next t → CountFresh t) ∧
  (∀ (i : Instr) (s t : State), i ≠ .load → i ≠ .loaddef → CountFresh s → exec i s = .next t → CountFresh t) ∧
  (∀ (i : Instr) (s t : State), i ≠ .load → i ≠ .loaddef → (∀ p a, i ≠ .setact p a) → exec i s = .next t →
    t.rpt.read 71 = s.rpt.read 71) ∧
  (∀ (s t : State) (B : Report), s.win = B.toList → exec .load s = .next t → (∃ r, t.resp = some r ∧ r.code = 0) →
    t.rpt.read 71 = some B[71]) ∧
  (∀ s t : State, exec .loaddef s = .next t → t.rpt.read 71 = some Config.defaultReport.bytes[71])

/-- R174: SETACT with the flag a profile already has leaves C and every byte but the count byte as they were, and
makes the count byte agree with the flags. -/
def Obligations.SetactRepairsTheCount : Prop :=
  ∀ (s : State) (i : Fin 5), Inv s →
    ∃ t, exec (.setact i.val s.cache.prof[i].active) s = .next t ∧ t.cache = s.cache ∧
      (∀ o, o ≠ 71 → t.rpt.read o = s.rpt.read o) ∧ CountFresh t

/-- R120: the LED slot and the four LED bytes change only in SETLED, LOAD and LOADDEF. -/
def Obligations.LedChangesOnlyBySetledAndLoads : Prop :=
  ∀ (i : Instr) (s t : State), (∀ d, i ≠ .setled d) → i ≠ .load → i ≠ .loaddef → exec i s = .next t →
    t.cache.led = s.cache.led ∧ ∀ o, 93 ≤ o → o ≤ 96 → t.rpt.read o = s.rpt.read o

/-- R11, R41: `MemRead` after `MemWrite` at the same place gives the value back, the lowest offset holding its most
significant byte; every other offset is untouched, and the memory keeps its form. -/
def Obligations.MemReadAfterMemWrite : Prop :=
  ∀ (m : Memory) (o n v : Nat),
    (v < 256 ^ n → (m.memWrite o n v).memRead o n = some v) ∧
    (0 < n → (m.memWrite o n v).read o = some (BitVec.ofNat 8 (v / 256 ^ (n - 1)))) ∧
    (∀ a, a < o ∨ o + n ≤ a → (m.memWrite o n v).read a = m.read a) ∧
    (m.wf = true → o + n ≤ 154 → (m.memWrite o n v).wf = true)

/-! ### Codecs -/

/-- R63, R96, R97: DPIENC and DPIDEC on every legal operand. -/
def Obligations.DpiCommandsCompute : Prop :=
  ∀ s : State,
    (∀ (a : Bool) (d : Nat), d ≤ 126 → ∃ t, exec (.dpienc a d) s = .next t ∧ KeepsReport s t ∧
      Succeeds s t (BitVec.ofNat 32 ((if a then 0 else 128) + d + 1)) []) ∧
    (∀ r : Byte, bitsOf r 6 0 ≠ 0 → ∃ t, exec (.dpidec r) s = .next t ∧ KeepsReport s t ∧
      Succeeds s t (BitVec.ofNat 32 ((if r.getLsbD 7 then 0 else 256) + (bitsOf r 6 0 - 1))) [])

/-- R65, R91, R98, R99: AFFENC and AFFDEC on every id of every family. -/
def Obligations.AffineCommandsCompute : Prop :=
  ∀ (s : State) (sf : Nat × Family) (id : Nat),
    sf ∈ [(0, Family.brightness), (1, .breatheSpeed), (2, .neonSpeed), (3, .frequency), (4, .times), (5, .holdTime)] →
    1 ≤ id → id ≤ sf.2.count →
    (∃ t, exec (.affenc sf.1 id) s = .next t ∧ KeepsReport s t ∧
      Succeeds s t (BitVec.ofNat 32 (id * sf.2.step + sf.2.base)) []) ∧
    (∃ t, exec (.affdec sf.1 (BitVec.ofNat 8 (id * sf.2.step + sf.2.base))) s = .next t ∧ KeepsReport s t ∧
      Succeeds s t (BitVec.ofNat 32 id) [])

/-- R100, R103, R104: CNTENC on every mask and CNTDEC on every legal count byte. -/
def Obligations.CountCommandsCompute : Prop :=
  ∀ s : State,
    (∀ m : BitVec 5, ∃ t, exec (.cntenc m) s = .next t ∧ KeepsReport s t ∧
      Succeeds s t (BitVec.ofNat 32 (0x20 + ((m.getLsbD 0).toNat + (m.getLsbD 1).toNat + (m.getLsbD 2).toNat
        + (m.getLsbD 3).toNat + (m.getLsbD 4).toNat))) []) ∧
    (∀ r : Byte, 0x20 ≤ r.toNat → r.toNat ≤ 0x25 → ∃ t, exec (.cntdec r) s = .next t ∧ KeepsReport s t ∧
      Succeeds s t (BitVec.ofNat 32 (r.toNat - 0x20)) [])

/-- R61, R62, R116, R117: LEDENC of every valid descriptor gives the mode byte and the codes of its ids, unused slots
0; LEDDEC of that mode byte and those codes, with any bytes in unused slots, gives the descriptor. -/
def Obligations.LedCommandsCompute : Prop :=
  ∀ (s : State) (sh : LedShape) (x1 x2 x3 a1 a2 a3 : Byte),
    slotHasId sh.row.fam1 x1 = true → slotHasId sh.row.fam2 x2 = true → sh.row.fam3.hasId x3.toNat = true →
    slotHolds sh.row.fam1 x1 a1 → slotHolds sh.row.fam2 x2 a2 → slotHolds (some sh.row.fam3) x3 a3 →
    (∃ t, exec (.ledenc (BitVec.ofNat 32 (descriptorNumber sh x1 x2 x3))) s = .next t ∧ KeepsReport s t ∧
      Succeeds s t (BitVec.ofNat 32 (sh.row.mode.toNat * 2 ^ 24 + slotCode sh.row.fam1 x1 * 2 ^ 16
        + slotCode sh.row.fam2 x2 * 2 ^ 8 + slotCode (some sh.row.fam3) x3)) []) ∧
    (∃ t, exec (.leddec (packQuad sh.row.mode a1 a2 a3)) s = .next t ∧ KeepsReport s t ∧
      Succeeds s t (BitVec.ofNat 32 (descriptorNumber sh x1 x2 x3)) [])

/-- R108 to R110: each of the eight LED rows, on argument bytes that are codes of its families, answers the
descriptor. That a row can be run on its own is the model's choice (log 6). -/
def Obligations.LedRowsCompute : Prop :=
  ∀ (s : State) (sh : LedShape) (x1 x2 x3 a1 a2 a3 : Byte),
    slotHasId sh.row.fam1 x1 = true → slotHasId sh.row.fam2 x2 = true → sh.row.fam3.hasId x3.toNat = true →
    slotHolds sh.row.fam1 x1 a1 → slotHolds sh.row.fam2 x2 a2 → slotHolds (some sh.row.fam3) x3 a3 →
    ∃ t, exec (ledInstr sh a1 a2 a3) s = .next t ∧ KeepsReport s t ∧
      Succeeds s t (BitVec.ofNat 32 (descriptorNumber sh x1 x2 x3)) []

/-- R117, R70: a raw quad presented on its own is answered as LEDDEC answers it, an unknown mode included, and each
LED row, on any argument bytes, answers or raises as LEDDEC does on its mode byte and those bytes. That a quad can be
presented on its own is the model's choice (log 6). -/
def Obligations.PresentedQuadIsLeddec : Prop :=
  (∀ (q : Word) (s : State), runPresented (.quad q) s = exec (.leddec q) s) ∧
  (∀ (sh : LedShape) (a1 a2 a3 : Byte) (s : State),
    exec (ledInstr sh a1 a2 a3) s = exec (.leddec (packQuad sh.row.mode a1 a2 a3)) s)

/-- R90: the DPI packer and its inverse, both ways. -/
def Obligations.DpiPackerRoundTrip : Prop :=
  (∀ (a : Bool) (d : Nat) (loc : Nat) (h : d < 127), ∃ r, dpiEnc a d = .ok r ∧ dpiDec r loc = .ok (a, ⟨d, h⟩)) ∧
  (∀ (r : Byte) (loc : Nat), bitsOf r 6 0 ≠ 0 → ∃ a d, dpiDec r loc = .ok (a, d) ∧ dpiEnc a d.val = .ok r) ∧
  (∀ r : Byte, bitsOf r 6 0 = 0 ↔ r = 0x00 ∨ r = 0x80)

/-- R94: the affine codecs and their inverse, both ways; the legal raw values are the codes of the ids, one for
each. -/
def Obligations.AffineRoundTrip : Prop :=
  ∀ f : Family,
    (∀ id, 1 ≤ id → id ≤ f.count → ∃ r, affEnc f id = .ok r ∧ affOk f r = true ∧ (affDec f r).toNat = id) ∧
    (∀ r, affOk f r = true → affEnc f (affDec f r).toNat = .ok r) ∧
    (∀ r : Byte, affOk f r = true ↔ ∃ id, 1 ≤ id ∧ id ≤ f.count ∧ r.toNat = id * f.step + f.base) ∧
    (∀ id id', id ≤ f.count → id' ≤ f.count → affCode f id = affCode f id' → id = id')

/-- R114: `led_dec` after `led_enc` is the identity; `led_enc` after `led_dec` differs only in unused slots, which
become 0. -/
def Obligations.LedCodecRoundTrip : Prop :=
  (∀ v : LedConfig, v.representable = true → ledDec (ledEnc v) = .ok v) ∧
  (∀ (q : LedQuad) (v : LedConfig) (sh : LedShape), ledDec q = .ok v → sh.row.mode = q.mode →
    (ledEnc v).mode = q.mode ∧ (ledEnc v).arg3 = q.arg3 ∧
    (ledEnc v).arg1 = (if sh.row.fam1 = none then 0 else q.arg1) ∧
    (ledEnc v).arg2 = (if sh.row.fam2 = none then 0 else q.arg2) ∧
    (ledEnc v = q ↔ (sh.row.fam1 = none → q.arg1 = 0) ∧ (sh.row.fam2 = none → q.arg2 = 0)))

/-- R115: `led_enc` of a representable configuration emits one of the eight mode bytes, a legal raw value in every
used slot and 0 in every unused one. -/
def Obligations.LedEncodingIsLegal : Prop :=
  ∀ v : LedConfig, v.representable = true →
    (ledEnc v).mode.toNat ∈ [0x28, 0x22, 0x42, 0x44, 0x48, 0x82, 0x84, 0x88] ∧
    ∃ sh : LedShape, sh.row.mode = (ledEnc v).mode ∧
      slotDecodes sh.row.fam1 (ledEnc v).arg1 ∧ slotDecodes sh.row.fam2 (ledEnc v).arg2 ∧
      affOk sh.row.fam3 (ledEnc v).arg3 = true ∧
      (sh.row.fam1 = none → (ledEnc v).arg1 = 0) ∧ (sh.row.fam2 = none → (ledEnc v).arg2 = 0)

/-- R107, R113: valid descriptors and representable configurations correspond one to one. -/
def Obligations.DescriptorsSpellConfigurations : Prop :=
  (∀ d : Word, descOk d = true → (ledOfDescriptor d).representable = true ∧ (ledOfDescriptor d).descriptor = d) ∧
  (∀ v : LedConfig, v.representable = true → descOk v.descriptor = true ∧ ledOfDescriptor v.descriptor = v)

/-- R111: the bytes of unused argument slots do not matter to `led_dec`; and its example. -/
def Obligations.UnusedSlotsAreNotRead : Prop :=
  (∀ (sh : LedShape) (a1 a2 a3 b1 b2 : Byte),
    (sh.row.fam1.isSome = true → a1 = b1) → (sh.row.fam2.isSome = true → a2 = b2) →
    ledDec ⟨sh.row.mode, a1, a2, a3⟩ = ledDec ⟨sh.row.mode, b1, b2, a3⟩) ∧
  ledDec ⟨0x28, 0xAA, 0xBB, 0x52⟩ = .ok (.steady 5)

/-- R106 for the commands of the field codecs, R110, R116 and R117 for LEDENC and LEDDEC: the answer of a codec command
depends on its operands alone, not on RPT, C or STATUS, and RPT and C stay as they were. That the eight LED rows are
run on their own is the model's choice (log 6). -/
def Obligations.CodecAnswersIgnoreTheState : Prop :=
  ∀ (i : Instr) (s s' : State), isCodec i = true →
    ∃ t t', exec i s = .next t ∧ exec i s' = .next t' ∧ t.resp = t'.resp ∧ KeepsReport s t ∧ KeepsReport s' t'

/-! ### The error record -/

/-- R150, R154: whatever is presented, the block either answers success, or raises and changes nothing but STATUS,
LAST_INFO and the response. -/
def Obligations.ExceptionsArePrecise : Prop :=
  ∀ (p : Presented) (s t : State), runPresented p s = .next t →
    (∃ r, t.resp = some r ∧ r.code = 0) ∨ (∃ code cause detail, 1 ≤ code ∧ code ≤ 3 ∧ Raises s t code cause detail)

/-- R142, R151: LAST_CODE is the RESP_CODE driven, but for a successful RDSTAT, which keeps the record; a sticky bit
is set exactly when it was set or the command raised its kind. -/
def Obligations.RecordFollowsTheResponse : Prop :=
  ∀ (i : Instr) (s t : State), exec i s = .next t →
    ∃ r, t.resp = some r ∧
      ((∃ reg, i = .rdstat reg) ∧ r.code = 0 → t.status = s.status ∧ t.lastInfo = s.lastInfo) ∧
      (¬((∃ reg, i = .rdstat reg) ∧ r.code = 0) → lastCode t.status = r.code) ∧
      (∀ k, 1 ≤ k → k ≤ 3 → t.status.getLsbD (7 + k) = (s.status.getLsbD (7 + k) || r.code.toNat == k))

/-- R143, R158: no step but a reset clears a sticky bit. -/
def Obligations.OnlyResetClearsStickyBits : Prop :=
  ∀ (s t : State), step s = .next t → (∀ rest, s.pending ≠ .reset :: rest) →
    ∀ b, 8 ≤ b → b ≤ 10 → s.status.getLsbD b = true → t.status.getLsbD b = true

/-- R149: an exception a command raises has a code and cause of that command's. For the LED rows the causes are the
model's reading of R110 (log 6). -/
def Obligations.CausesAreTheCommands : Prop :=
  ∀ (i : Instr) (s t : State) (r : Response), exec i s = .next t → t.resp = some r → r.code ≠ 0 →
    (r.code.toNat, bitsOf t.lastInfo 31 24) ∈ allowedCauses i

/-! ### The whole machine -/

/-- R16, R33, R66 to R68: a step on a presented word runs the block on that word, with WIN carrying the bytes offered.
A word that decodes to `i` is `exec i`; a word that selects no instruction takes the exception of its decode error,
which the last clauses name: cause 0x20 with the opcode for an unassigned opcode, cause 0x21 for a bit under MASK. The
list of what the host does next, the count, and a raw quad presented on its own (cause 0x03 for an unknown mode,
R110) are the model's (log 3, log 7, log 6). -/
def Obligations.StepRunsTheDecodedInstruction : Prop :=
  ∀ (s : State) (p : Presented) (win : List Byte) (rest : List Input),
    s.pending = .present p win :: rest →
    step s = runPresented p { s with pending := rest, win := win, issued := s.issued + 1 } ∧
    (∀ i, decode p = .ok i → step s = exec i { s with pending := rest, win := win, issued := s.issued + 1 }) ∧
    (∀ e, decode p = .error e →
      step s = .next (({ s with pending := rest, win := win, issued := s.issued + 1 } : State).raise (excOfDecodeError e)) ∧
      (∀ opc, e = .unassignedOpcode opc → excOfDecodeError e = ⟨.illegalCommand, 0x20, BitVec.ofNat 24 opc.toNat⟩) ∧
      (e = .maskMismatch → excOfDecodeError e = ⟨.illegalCommand, 0x21, 0⟩) ∧
      (∀ mode, e = .unknownLedMode mode → excOfDecodeError e = ⟨.invalidRawInput, 0x03, BitVec.ofNat 24 (93 * 256 + mode.toNat)⟩))

/-- R16, R34, R50: every presented word, accepted or not, takes exactly one place in the order: what follows it is
next, and the number advances by one. The form is the model's (log 3, log 7). -/
def Obligations.CommandsAreTakenInOrder : Prop :=
  ∀ (s t : State) (p : Presented) (win : List Byte) (rest : List Input),
    s.pending = .present p win :: rest → step s = .next t →
    t.pending = rest ∧ t.win = win ∧ t.issued = s.issued + 1 ∧ t.resp.isSome = true

/-- R33, R122: no command but LOAD looks at WIN. -/
def Obligations.OnlyLoadSamplesWin : Prop :=
  ∀ (i : Instr) (s t : State) (L : List Byte), i ≠ .load → exec i s = .next t →
    exec i { s with win := L } = .next { t with win := L }

/-- R35: the invariant holds after reset. -/
def Obligations.ResetMeetsTheInvariant : Prop := Inv State.reset

/-- R29, R31 to R33, R38, R133, R148, R151: every step keeps the invariant. -/
def Obligations.StepKeepsTheInvariant : Prop :=
  ∀ s t : State, Inv s → step s = .next t → Inv t

/-- R150, R154: from every state of the invariant, every run of any length goes on: no command word, raw quad or
operand stops the block. -/
def Obligations.TheBlockNeverStops : Prop :=
  ∀ (s : State) (k : Nat), Inv s → RunsSafely s k

/-- R133: after every command C is `decodeAll` of RPT: in every state a run reaches, and a successful LOAD or
LOADDEF establishes it from any state. -/
def Obligations.CacheIsDecodeOfReport : Prop :=
  (∀ s : State, Reachable s → Lockstep s) ∧
  (∀ (i : Instr) (s t : State), Lockstep s → exec i s = .next t → Lockstep t) ∧
  (∀ (i : Instr) (s t : State), i = .load ∨ i = .loaddef → exec i s = .next t → (∃ r, t.resp = some r ∧ r.code = 0) →
    Lockstep t)

/-- R134: in every state a run reaches, LOAD of the bytes RDRAW gives succeeds and reproduces RPT and C. -/
def Obligations.ReportLoadsBack : Prop :=
  ∀ s : State, Reachable s →
    ∃ (t : State) (L : List Byte), exec .rdraw s = .next t ∧ t.resp = some ⟨0, 0, L⟩ ∧
      ∀ s' : State, s'.win = L → ∃ u, exec .load s' = .next u ∧ u.resp = some ⟨0, 0, []⟩ ∧
        u.rpt = s.rpt ∧ u.cache = s.cache

/-! ### The assembler -/

/-- R73, R74, R76: the nine example lines of R76, in its order, assemble to the words it gives. -/
def Obligations.ExampleLinesAssemble : Prop :=
  assembleLine "load".toList = some [0x0200000000000000] ∧
  assembleLine "setact p2, 0".toList = some [0x0902000000000000] ∧
  assembleLine "setdpi p2, 40".toList = some [0x0802000000000028] ∧
  assembleLine "setrgb p4, 0x123456".toList = some [0x0A04000000123456] ∧
  assembleLine "setled blink(5, 3, resp(2))".toList = some [0x0B00000080050302] ∧
  assembleLine "setled hold(1, neon(1))".toList = some [0x0B000000E0010001] ∧
  assembleLine "rdfld rgb1".toList = some [0x050C000000000000] ∧
  assembleLine "affenc bright, 10".toList = some [0x120000000000000A] ∧
  assembleLine "leddec 0x42, 5, 3, 0x22".toList = some [0x1500000042050322]

/-- R75: a pseudo-instruction assembles to the words of its expansion: each word decodes to its command. -/
def Obligations.PseudoInstructionsExpand : Prop :=
  ∀ (p d : Nat) (a : Bool) (rgb : Word24), p < 5 → d < 256 →
    (AsmCommand.act p).words.map (fun w => decode (.command w)) = [.ok (.setact p true)] ∧
    (AsmCommand.deact p).words.map (fun w => decode (.command w)) = [.ok (.setact p false)] ∧
    AsmCommand.rdcount.words.map (fun w => decode (.command w)) = [.ok (.rdfld 1)] ∧
    AsmCommand.rdstatus.words.map (fun w => decode (.command w)) = [.ok (.rdstat 0)] ∧
    AsmCommand.rdinfo.words.map (fun w => decode (.command w)) = [.ok (.rdstat 1)] ∧
    (AsmCommand.setprof p a d rgb).words.map (fun w => decode (.command w)) =
      [.ok (.setact p a), .ok (.setdpi p d), .ok (.setrgb p rgb)]

/-- R75, R177: setprof is three commands: when the DPI index is out of range the second raises, the first and the
third take effect. How the host's commands stand in the state is the model's (log 3). -/
def Obligations.SetprofIsNotAtomic : Prop :=
  ∀ (s : State) (i : Fin 5) (a : Bool) (d : Nat) (rgb : Word24), 126 < d → d < 256 →
    s.pending = (AsmCommand.setprof i.val a d rgb).words.map (fun w => .present (.command w) []) →
    ∃ t, Sys2Proof.core.run 3 s = .next t ∧
      t.cache.prof[i] = { active := a, dpi := s.cache.prof[i].dpi, rgb := rgb } ∧
      t.status.getLsbD 8 = true ∧ lastCode t.status = 0
end

