-- ==== Sys2Proof/Laws/Decode.lean ====
section
/-! SUPPORT. The fields of a packed command word and of a packed quad: what each field accessor reads back. -/

namespace Sys2Proof

@[simp] theorem opcField_packCommand (opc : Byte) (sel : Nat) (data : Word) : opcField (packCommand opc sel data) = opc := by
  simp only [opcField, packCommand]
  repeat (rw [BitVec.extractLsb'_append_eq_ite]; simp)

theorem selBits_packCommand (opc : Byte) (sel : Nat) (data : Word) :
    (packCommand opc sel data).extractLsb' 48 8 = BitVec.ofNat 8 sel := by
  simp only [packCommand]
  repeat (rw [BitVec.extractLsb'_append_eq_ite]; simp)

@[simp] theorem selField_packCommand (opc : Byte) (sel : Nat) (data : Word) :
    selField (packCommand opc sel data) = sel % 256 := by
  have : bitsOf (packCommand opc sel data) 55 48 = (BitVec.ofNat 8 sel).toNat :=
    congrArg BitVec.toNat (selBits_packCommand opc sel data)
  simpa [selField] using this

/-- Any field of DATA is the same field of the operand. -/
theorem dataBits_packCommand (opc : Byte) (sel : Nat) (data : Word) (lo n : Nat) (h : lo + n ≤ 32) :
    (packCommand opc sel data).extractLsb' lo n = data.extractLsb' lo n := by
  apply BitVec.eq_of_getLsbD_eq
  intro i hi
  simp only [packCommand, BitVec.getLsbD_extractLsb', BitVec.getLsbD_append]
  rw [if_pos (by omega)]

@[simp] theorem dataField_packCommand (opc : Byte) (sel : Nat) (data : Word) : dataField (packCommand opc sel data) = data := by
  rw [dataField, dataBits_packCommand _ _ _ _ _ (by omega)]
  simp

@[simp] theorem quadOfBytes_mode (m a b c : Byte) : (packQuad m a b c).extractLsb' 24 8 = m := by
  simp only [packQuad, wordOfBytes]
  repeat (rw [BitVec.extractLsb'_append_eq_ite]; simp)

@[simp] theorem quadOfBytes_arg1 (m a b c : Byte) : (packQuad m a b c).extractLsb' 16 8 = a := by
  simp only [packQuad, wordOfBytes]
  repeat (rw [BitVec.extractLsb'_append_eq_ite]; simp)

@[simp] theorem quadOfBytes_arg2 (m a b c : Byte) : (packQuad m a b c).extractLsb' 8 8 = b := by
  simp only [packQuad, wordOfBytes]
  repeat (rw [BitVec.extractLsb'_append_eq_ite]; simp)

@[simp] theorem quadOfBytes_arg3 (m a b c : Byte) : (packQuad m a b c).extractLsb' 0 8 = c := by
  simp only [packQuad, wordOfBytes]
  repeat (rw [BitVec.extractLsb'_append_eq_ite]; simp)

end Sys2Proof
end

