-- ==== Sys2Proof/Laws/State.lean ====
section
/-! SUPPORT. What each state update does to each field: one lemma a field and an update, each true by unfolding
the update once, so that no later proof unfolds one. -/

namespace Sys2Proof.Machine

/-! `State.complete` -/

@[simp] theorem State.complete_rpt (s : State) (d : Word) (w : List Byte) : (s.complete d w).rpt = s.rpt := rfl
@[simp] theorem State.complete_cache (s : State) (d : Word) (w : List Byte) : (s.complete d w).cache = s.cache := rfl
@[simp] theorem State.complete_status (s : State) (d : Word) (w : List Byte) : (s.complete d w).status = statusOnSuccess s.status := rfl
@[simp] theorem State.complete_lastInfo (s : State) (d : Word) (w : List Byte) : (s.complete d w).lastInfo = 0 := rfl
@[simp] theorem State.complete_pending (s : State) (d : Word) (w : List Byte) : (s.complete d w).pending = s.pending := rfl
@[simp] theorem State.complete_win (s : State) (d : Word) (w : List Byte) : (s.complete d w).win = s.win := rfl
@[simp] theorem State.complete_resp (s : State) (d : Word) (w : List Byte) : (s.complete d w).resp = some ⟨0, d, w⟩ := rfl
@[simp] theorem State.complete_issued (s : State) (d : Word) (w : List Byte) : (s.complete d w).issued = s.issued := rfl

/-! `State.completeKeepingRecord` -/

@[simp] theorem State.completeKeepingRecord_rpt (s : State) (d : Word) : (s.completeKeepingRecord d).rpt = s.rpt := rfl
@[simp] theorem State.completeKeepingRecord_cache (s : State) (d : Word) : (s.completeKeepingRecord d).cache = s.cache := rfl
@[simp] theorem State.completeKeepingRecord_status (s : State) (d : Word) : (s.completeKeepingRecord d).status = s.status := rfl
@[simp] theorem State.completeKeepingRecord_lastInfo (s : State) (d : Word) : (s.completeKeepingRecord d).lastInfo = s.lastInfo := rfl
@[simp] theorem State.completeKeepingRecord_pending (s : State) (d : Word) : (s.completeKeepingRecord d).pending = s.pending := rfl
@[simp] theorem State.completeKeepingRecord_win (s : State) (d : Word) : (s.completeKeepingRecord d).win = s.win := rfl
@[simp] theorem State.completeKeepingRecord_resp (s : State) (d : Word) : (s.completeKeepingRecord d).resp = some ⟨0, d, []⟩ := rfl
@[simp] theorem State.completeKeepingRecord_issued (s : State) (d : Word) : (s.completeKeepingRecord d).issued = s.issued := rfl

/-! `State.raise` -/

@[simp] theorem State.raise_rpt (s : State) (e : Exc) : (s.raise e).rpt = s.rpt := rfl
@[simp] theorem State.raise_cache (s : State) (e : Exc) : (s.raise e).cache = s.cache := rfl
@[simp] theorem State.raise_status (s : State) (e : Exc) : (s.raise e).status = statusOnRaise s.status e.kind := rfl
@[simp] theorem State.raise_lastInfo (s : State) (e : Exc) : (s.raise e).lastInfo = infoOf e := rfl
@[simp] theorem State.raise_pending (s : State) (e : Exc) : (s.raise e).pending = s.pending := rfl
@[simp] theorem State.raise_win (s : State) (e : Exc) : (s.raise e).win = s.win := rfl
@[simp] theorem State.raise_resp (s : State) (e : Exc) : (s.raise e).resp = some ⟨BitVec.ofNat 8 e.kind.code, 0, []⟩ := rfl
@[simp] theorem State.raise_issued (s : State) (e : Exc) : (s.raise e).issued = s.issued := rfl

/-! `State.construct` -/

@[simp] theorem State.construct_rpt (s : State) (B : Report) (c : Cache) : (s.construct B c).rpt = Memory.ofReport B := rfl
@[simp] theorem State.construct_cache (s : State) (B : Report) (c : Cache) : (s.construct B c).cache = c := rfl
@[simp] theorem State.construct_status (s : State) (B : Report) (c : Cache) : (s.construct B c).status = s.status := rfl
@[simp] theorem State.construct_lastInfo (s : State) (B : Report) (c : Cache) : (s.construct B c).lastInfo = s.lastInfo := rfl
@[simp] theorem State.construct_pending (s : State) (B : Report) (c : Cache) : (s.construct B c).pending = s.pending := rfl
@[simp] theorem State.construct_win (s : State) (B : Report) (c : Cache) : (s.construct B c).win = s.win := rfl
@[simp] theorem State.construct_resp (s : State) (B : Report) (c : Cache) : (s.construct B c).resp = s.resp := rfl
@[simp] theorem State.construct_issued (s : State) (B : Report) (c : Cache) : (s.construct B c).issued = s.issued := rfl

/-! `State.memWrite` -/

@[simp] theorem State.memWrite_rpt (s : State) (o n v : Nat) : (s.memWrite o n v).rpt = s.rpt.memWrite o n v := rfl
@[simp] theorem State.memWrite_cache (s : State) (o n v : Nat) : (s.memWrite o n v).cache = s.cache := rfl
@[simp] theorem State.memWrite_status (s : State) (o n v : Nat) : (s.memWrite o n v).status = s.status := rfl
@[simp] theorem State.memWrite_lastInfo (s : State) (o n v : Nat) : (s.memWrite o n v).lastInfo = s.lastInfo := rfl
@[simp] theorem State.memWrite_pending (s : State) (o n v : Nat) : (s.memWrite o n v).pending = s.pending := rfl
@[simp] theorem State.memWrite_win (s : State) (o n v : Nat) : (s.memWrite o n v).win = s.win := rfl
@[simp] theorem State.memWrite_resp (s : State) (o n v : Nat) : (s.memWrite o n v).resp = s.resp := rfl
@[simp] theorem State.memWrite_issued (s : State) (o n v : Nat) : (s.memWrite o n v).issued = s.issued := rfl

/-! `State.writeProfileDpi` -/

@[simp] theorem State.writeProfileDpi_rpt (s : State) (i : Fin 5) (p : Profile) : (s.writeProfileDpi i p).rpt = s.rpt.memWrite (dpiOffset i) 1 (dpiByte p.active p.dpi).toNat := rfl
@[simp] theorem State.writeProfileDpi_cache (s : State) (i : Fin 5) (p : Profile) : (s.writeProfileDpi i p).cache = s.cache.withProfile i p := rfl
@[simp] theorem State.writeProfileDpi_status (s : State) (i : Fin 5) (p : Profile) : (s.writeProfileDpi i p).status = s.status := rfl
@[simp] theorem State.writeProfileDpi_lastInfo (s : State) (i : Fin 5) (p : Profile) : (s.writeProfileDpi i p).lastInfo = s.lastInfo := rfl
@[simp] theorem State.writeProfileDpi_pending (s : State) (i : Fin 5) (p : Profile) : (s.writeProfileDpi i p).pending = s.pending := rfl
@[simp] theorem State.writeProfileDpi_win (s : State) (i : Fin 5) (p : Profile) : (s.writeProfileDpi i p).win = s.win := rfl
@[simp] theorem State.writeProfileDpi_resp (s : State) (i : Fin 5) (p : Profile) : (s.writeProfileDpi i p).resp = s.resp := rfl
@[simp] theorem State.writeProfileDpi_issued (s : State) (i : Fin 5) (p : Profile) : (s.writeProfileDpi i p).issued = s.issued := rfl

/-! `State.writeProfileRgb` -/

@[simp] theorem State.writeProfileRgb_rpt (s : State) (i : Fin 5) (p : Profile) : (s.writeProfileRgb i p).rpt = s.rpt.memWrite (rgbOffset i) 3 p.rgb.toNat := rfl
@[simp] theorem State.writeProfileRgb_cache (s : State) (i : Fin 5) (p : Profile) : (s.writeProfileRgb i p).cache = s.cache.withProfile i p := rfl
@[simp] theorem State.writeProfileRgb_status (s : State) (i : Fin 5) (p : Profile) : (s.writeProfileRgb i p).status = s.status := rfl
@[simp] theorem State.writeProfileRgb_lastInfo (s : State) (i : Fin 5) (p : Profile) : (s.writeProfileRgb i p).lastInfo = s.lastInfo := rfl
@[simp] theorem State.writeProfileRgb_pending (s : State) (i : Fin 5) (p : Profile) : (s.writeProfileRgb i p).pending = s.pending := rfl
@[simp] theorem State.writeProfileRgb_win (s : State) (i : Fin 5) (p : Profile) : (s.writeProfileRgb i p).win = s.win := rfl
@[simp] theorem State.writeProfileRgb_resp (s : State) (i : Fin 5) (p : Profile) : (s.writeProfileRgb i p).resp = s.resp := rfl
@[simp] theorem State.writeProfileRgb_issued (s : State) (i : Fin 5) (p : Profile) : (s.writeProfileRgb i p).issued = s.issued := rfl

/-! `State.writeLed` -/

@[simp] theorem State.writeLed_rpt (s : State) (v : LedConfig) : (s.writeLed v).rpt = s.rpt.memWrite 93 4 (ledEnc v).word.toNat := rfl
@[simp] theorem State.writeLed_cache (s : State) (v : LedConfig) : (s.writeLed v).cache = { s.cache with led := v } := rfl
@[simp] theorem State.writeLed_status (s : State) (v : LedConfig) : (s.writeLed v).status = s.status := rfl
@[simp] theorem State.writeLed_lastInfo (s : State) (v : LedConfig) : (s.writeLed v).lastInfo = s.lastInfo := rfl
@[simp] theorem State.writeLed_pending (s : State) (v : LedConfig) : (s.writeLed v).pending = s.pending := rfl
@[simp] theorem State.writeLed_win (s : State) (v : LedConfig) : (s.writeLed v).win = s.win := rfl
@[simp] theorem State.writeLed_resp (s : State) (v : LedConfig) : (s.writeLed v).resp = s.resp := rfl
@[simp] theorem State.writeLed_issued (s : State) (v : LedConfig) : (s.writeLed v).issued = s.issued := rfl

/-! `State.recount` -/

@[simp] theorem State.recount_rpt (s : State) : s.recount.rpt = s.rpt.memWrite 71 1 (cntEnc (activeMask s.cache)).toNat := rfl
@[simp] theorem State.recount_cache (s : State) : s.recount.cache = s.cache := rfl
@[simp] theorem State.recount_status (s : State) : s.recount.status = s.status := rfl
@[simp] theorem State.recount_lastInfo (s : State) : s.recount.lastInfo = s.lastInfo := rfl
@[simp] theorem State.recount_pending (s : State) : s.recount.pending = s.pending := rfl
@[simp] theorem State.recount_win (s : State) : s.recount.win = s.win := rfl
@[simp] theorem State.recount_resp (s : State) : s.recount.resp = s.resp := rfl
@[simp] theorem State.recount_issued (s : State) : s.recount.issued = s.issued := rfl

/-! `State.accept` -/

@[simp] theorem State.accept_rpt (s : State) (w : List Byte) (r : List Input) : (s.accept w r).rpt = s.rpt := rfl
@[simp] theorem State.accept_cache (s : State) (w : List Byte) (r : List Input) : (s.accept w r).cache = s.cache := rfl
@[simp] theorem State.accept_status (s : State) (w : List Byte) (r : List Input) : (s.accept w r).status = s.status := rfl
@[simp] theorem State.accept_lastInfo (s : State) (w : List Byte) (r : List Input) : (s.accept w r).lastInfo = s.lastInfo := rfl
@[simp] theorem State.accept_pending (s : State) (w : List Byte) (r : List Input) : (s.accept w r).pending = r := rfl
@[simp] theorem State.accept_win (s : State) (w : List Byte) (r : List Input) : (s.accept w r).win = w := rfl
@[simp] theorem State.accept_resp (s : State) (w : List Byte) (r : List Input) : (s.accept w r).resp = s.resp := rfl
@[simp] theorem State.accept_issued (s : State) (w : List Byte) (r : List Input) : (s.accept w r).issued = s.issued + 1 := rfl

/-! `State.presentNext` -/

@[simp] theorem State.presentNext_rpt (s : State) (p : Presented) : (s.presentNext p).rpt = s.rpt := rfl
@[simp] theorem State.presentNext_cache (s : State) (p : Presented) : (s.presentNext p).cache = s.cache := rfl
@[simp] theorem State.presentNext_status (s : State) (p : Presented) : (s.presentNext p).status = s.status := rfl
@[simp] theorem State.presentNext_lastInfo (s : State) (p : Presented) : (s.presentNext p).lastInfo = s.lastInfo := rfl
@[simp] theorem State.presentNext_pending (s : State) (p : Presented) : (s.presentNext p).pending = .present p s.offeredWin :: s.pending.tail := rfl
@[simp] theorem State.presentNext_win (s : State) (p : Presented) : (s.presentNext p).win = s.win := rfl
@[simp] theorem State.presentNext_resp (s : State) (p : Presented) : (s.presentNext p).resp = s.resp := rfl
@[simp] theorem State.presentNext_issued (s : State) (p : Presented) : (s.presentNext p).issued = s.issued := rfl

/-! `State.assertReset` -/

@[simp] theorem State.assertReset_rpt (r : List Input) : (State.assertReset r).rpt = State.reset.rpt := rfl
@[simp] theorem State.assertReset_cache (r : List Input) : (State.assertReset r).cache = State.reset.cache := rfl
@[simp] theorem State.assertReset_status (r : List Input) : (State.assertReset r).status = State.reset.status := rfl
@[simp] theorem State.assertReset_lastInfo (r : List Input) : (State.assertReset r).lastInfo = State.reset.lastInfo := rfl
@[simp] theorem State.assertReset_pending (r : List Input) : (State.assertReset r).pending = r := rfl
@[simp] theorem State.assertReset_win (r : List Input) : (State.assertReset r).win = State.reset.win := rfl
@[simp] theorem State.assertReset_resp (r : List Input) : (State.assertReset r).resp = State.reset.resp := rfl
@[simp] theorem State.assertReset_issued (r : List Input) : (State.assertReset r).issued = State.reset.issued := rfl

/-! `Cache.withProfile` -/

@[simp] theorem Cache.withProfile_led (c : Cache) (i : Fin 5) (p : Profile) : (c.withProfile i p).led = c.led := rfl
@[simp] theorem Cache.withProfile_prof (c : Cache) (i : Fin 5) (p : Profile) : (c.withProfile i p).prof = c.prof.set i p := rfl

/-- The slot written holds what was written. -/
theorem Cache.withProfile_same (c : Cache) (i : Fin 5) (p : Profile) : (c.withProfile i p).prof[i] = p := by
  simp

/-- Every other slot keeps what it held. -/
theorem Cache.withProfile_other (c : Cache) (i j : Fin 5) (p : Profile) (h : i ≠ j) :
    (c.withProfile i p).prof[j] = c.prof[j] := by
  have : i.val ≠ j.val := fun e => h (Fin.ext e)
  simp [Vector.getElem_set_ne, this]

end Sys2Proof.Machine
end

