-- ==== Sys2Proof/Laws/Ops.lean ====
section
/-! SUPPORT. How a command can end, said once for each of the shared endings, and the one inversion of `step`. -/

namespace Sys2Proof.Machine

/-- `answer`: the word, or the exception and nothing else (R150, R151). -/
theorem answer_cases {s : State} {r : Except Exc Word} {t : State} (h : answer s r = .next t) :
    (∃ d, r = .ok d ∧ t = s.complete d []) ∨ (∃ e, r = .error e ∧ t = s.raise e) := by
  cases r with
  | ok d => exact .inl ⟨d, rfl, by cases h; rfl⟩
  | error e => exact .inr ⟨e, rfl, by cases h; rfl⟩

/-- `commit`: all of the writes, or the exception and nothing else (R46, R154). -/
theorem commit_cases {s : State} {r : Except Exc State} {t : State} (h : commit s r = .next t) :
    (∃ u, r = .ok u ∧ t = u.complete 0 []) ∨ (∃ e, r = .error e ∧ t = s.raise e) := by
  cases r with
  | ok u => exact .inl ⟨u, rfl, by cases h; rfl⟩
  | error e => exact .inr ⟨e, rfl, by cases h; rfl⟩

theorem answer_next (s : State) (r : Except Exc Word) : ∃ t, answer s r = .next t := by
  cases r with
  | ok d => exact ⟨_, rfl⟩
  | error e => exact ⟨_, rfl⟩

theorem commit_next (s : State) (r : Except Exc State) : ∃ t, commit s r = .next t := by
  cases r with
  | ok d => exact ⟨_, rfl⟩
  | error e => exact ⟨_, rfl⟩

/-- `withReportData` goes on only with the data (log 8). -/
theorem withReportData_cases {α : Type} {r : Option α} {k : α → Result} {t : State}
    (h : withReportData r k = .next t) : ∃ a, r = some a ∧ k a = .next t := by
  cases r with
  | none => cases h
  | some a => exact ⟨a, rfl, h⟩

/-- Everything a step can do: wait, reset, perform a decoded instruction, or raise (R66, R167). -/
theorem step_cases {s t : State} (h : step s = .next t) :
    (s.pending = [] ∧ t = s) ∨
    (∃ rest, s.pending = .reset :: rest ∧ t = State.assertReset rest) ∨
    (∃ p win rest i, s.pending = .present p win :: rest ∧ decode p = .ok i ∧ exec i (s.accept win rest) = .next t) ∨
    (∃ p win rest e, s.pending = .present p win :: rest ∧ decode p = .error e ∧
      t = (s.accept win rest).raise (excOfDecodeError e)) := by
  unfold step at h
  split at h
  · rename_i hp; cases h; exact .inl ⟨hp, rfl⟩
  · rename_i rest hp; cases h; exact .inr (.inl ⟨rest, hp, rfl⟩)
  · rename_i p win rest hp
    unfold runPresented at h
    split at h
    · rename_i i hd; exact .inr (.inr (.inl ⟨p, win, rest, i, hp, hd, h⟩))
    · rename_i e hd; cases h; exact .inr (.inr (.inr ⟨p, win, rest, e, hp, hd, rfl⟩))

end Sys2Proof.Machine
end

