-- ==== Sys2Proof/Laws/Exec.lean ====
section
/-! SUPPORT. Everything an instruction can do to the state, said once for `exec`: claims over all instructions are
derived from this and not from the meanings. -/

namespace Sys2Proof.Machine

/-- The commands that write RPT and C (R39). -/
def writesReport : Instr → Bool
  | .loaddef | .load | .setdpi _ _ | .setact _ _ | .setrgb _ _ | .setled _ => true
  | _ => false

/-- What the state a command leaves can be, before its response is recorded: as it was, or written by one of the
block's writes (R39, R45). -/
inductive Writes (s : State) : Instr → State → Prop where
  | nothing (i : Instr) (reads : writesReport i = false) : Writes s i s
  | loaddef : Writes s .loaddef (s.construct Config.defaultReport.bytes Config.defaultReport.cache)
  | load (B : Report) (c : Cache) (h : loadCheck s.win = .ok (B, c)) : Writes s .load (s.construct B c)
  | setdpi (i : Fin 5) (d : DpiIndex) :
      Writes s (.setdpi i.val d.val) (s.writeProfileDpi i { s.cache.prof[i] with dpi := d })
  | setact (i : Fin 5) (a : Bool) :
      Writes s (.setact i.val a) (s.writeProfileDpi i { s.cache.prof[i] with active := a }).recount
  | setrgb (i : Fin 5) (rgb : Word24) :
      Writes s (.setrgb i.val rgb) (s.writeProfileRgb i { s.cache.prof[i] with rgb := rgb })
  | setled (d : Word) (h : descOk d = true) : Writes s (.setled d) (s.writeLed (ledOfDescriptor d))

/-- How an instruction ends: it raises and writes nothing, or it succeeds on what it wrote and is not RDSTAT, or it is
a successful RDSTAT (R150, R151). -/
inductive Ends (s : State) (i : Instr) : State → Prop where
  | raised (e : Exc) : Ends s i (s.raise e)
  | succeeded (u : State) (d : Word) (w : List Byte) (h : Writes s i u) (other : ∀ reg, i ≠ .rdstat reg) :
      Ends s i (u.complete d w)
  | statusRead (reg : Nat) (d : Word) (h : i = .rdstat reg) : Ends s i (s.completeKeepingRecord d)

theorem ends_of_answer {s t : State} {i : Instr} {r : Except Exc Word} (h : answer s r = .next t)
    (reads : writesReport i = false) (other : ∀ reg, i ≠ .rdstat reg) : Ends s i t := by
  obtain ⟨d, -, rfl⟩ | ⟨e, -, rfl⟩ := answer_cases h
  · exact .succeeded s d [] (.nothing i reads) other
  · exact .raised e

theorem profileSlot_ok {pid : Nat} {i : Fin 5} (h : profileSlot pid = .ok i) : pid = i.val := by
  unfold profileSlot at h
  split at h
  · cases h; rfl
  · cases h

theorem dpiIndex_ok {n : Nat} {d : DpiIndex} (h : dpiIndex n = .ok d) : n = d.val := by
  unfold dpiIndex at h
  split at h
  · cases h; rfl
  · cases h

theorem ledOperand_ok {d : Word} {v : LedConfig} (h : ledOperand d = .ok v) :
    descOk d = true ∧ v = ledOfDescriptor d := by
  unfold ledOperand at h
  split at h
  · cases h; exact ⟨by assumption, rfl⟩
  · cases h

/-- A bind in `Except` that succeeds went through its first part. -/
theorem bind_ok {ε α β : Type} {x : Except ε α} {f : α → Except ε β} {b : β} (h : (x >>= f) = .ok b) :
    ∃ a, x = .ok a ∧ f a = .ok b := by
  cases x with
  | ok a => exact ⟨a, rfl, h⟩
  | error e => cases h

theorem map_ok {ε α β : Type} {x : Except ε α} {f : α → β} {b : β} (h : x.map f = .ok b) : ∃ a, x = .ok a ∧ f a = b := by
  cases x with
  | ok a => exact ⟨a, rfl, by cases h; rfl⟩
  | error e => cases h

theorem setdpi_ends {s t : State} {pid dpi : Nat} (h : execSetdpi pid dpi s = .next t) : Ends s (.setdpi pid dpi) t := by
  obtain ⟨u, hu, rfl⟩ | ⟨e, -, rfl⟩ := commit_cases h
  · obtain ⟨i, hi, hu⟩ := bind_ok hu
    obtain ⟨d, hd, hu⟩ := bind_ok hu
    cases hu
    rw [profileSlot_ok hi, dpiIndex_ok hd]
    exact .succeeded _ _ _ (.setdpi i d) nofun
  · exact .raised e

theorem setact_ends {s t : State} {pid : Nat} {a : Bool} (h : execSetact pid a s = .next t) : Ends s (.setact pid a) t := by
  obtain ⟨u, hu, rfl⟩ | ⟨e, -, rfl⟩ := commit_cases h
  · obtain ⟨i, hi, hu⟩ := bind_ok hu
    cases hu
    rw [profileSlot_ok hi]
    exact .succeeded _ _ _ (.setact i a) nofun
  · exact .raised e

theorem setrgb_ends {s t : State} {pid : Nat} {rgb : Word24} (h : execSetrgb pid rgb s = .next t) :
    Ends s (.setrgb pid rgb) t := by
  obtain ⟨u, hu, rfl⟩ | ⟨e, -, rfl⟩ := commit_cases h
  · obtain ⟨i, hi, hu⟩ := bind_ok hu
    cases hu
    rw [profileSlot_ok hi]
    exact .succeeded _ _ _ (.setrgb i rgb) nofun
  · exact .raised e

theorem setled_ends {s t : State} {d : Word} (h : execSetled d s = .next t) : Ends s (.setled d) t := by
  obtain ⟨u, hu, rfl⟩ | ⟨e, -, rfl⟩ := commit_cases h
  · obtain ⟨v, hv, hu⟩ := bind_ok hu
    cases hu
    obtain ⟨ok, rfl⟩ := ledOperand_ok hv
    exact .succeeded _ _ _ (.setled d ok) nofun
  · exact .raised e

theorem load_ends {s t : State} (h : execLoad s = .next t) : Ends s .load t := by
  obtain ⟨u, hu, rfl⟩ | ⟨e, -, rfl⟩ := commit_cases h
  · obtain ⟨⟨B, c⟩, hb, rfl⟩ := map_ok hu
    exact .succeeded _ _ _ (.load B c hb) nofun
  · exact .raised e

theorem rdstat_ends {s t : State} {reg : Nat} (h : execRdstat reg s = .next t) : Ends s (.rdstat reg) t := by
  unfold execRdstat at h
  split at h <;> cases h
  · exact .statusRead 0 _ rfl
  · exact .statusRead 1 _ rfl
  · exact .raised _

theorem rdbyte_ends {s t : State} {o : Nat} (h : execRdbyte o s = .next t) : Ends s (.rdbyte o) t := by
  unfold execRdbyte at h
  split at h
  · exact ends_of_answer h rfl nofun
  · obtain ⟨b, -, h⟩ := withReportData_cases h; exact ends_of_answer h rfl nofun

theorem rdfld_ends {s t : State} {f : Nat} (h : execRdfld f s = .next t) : Ends s (.rdfld f) t := by
  unfold execRdfld at h
  split at h
  · exact ends_of_answer h rfl nofun
  · obtain ⟨b, -, h⟩ := withReportData_cases h; exact ends_of_answer h rfl nofun

theorem rdraw_ends {s t : State} (h : execRdraw s = .next t) : Ends s .rdraw t := by
  obtain ⟨L, -, h⟩ := withReportData_cases h
  cases h
  exact .succeeded _ _ _ (.nothing _ rfl) nofun

/-- The inversion of `exec`. -/
theorem exec_ends {i : Instr} {s t : State} (h : exec i s = .next t) : Ends s i t := by
  cases i with
  | loaddef => cases h; exact .succeeded _ _ _ .loaddef nofun
  | load => exact load_ends h
  | rdraw => exact rdraw_ends h
  | rdbyte _ => exact rdbyte_ends h
  | rdfld _ => exact rdfld_ends h
  | setdpi _ _ => exact setdpi_ends h
  | setact _ _ => exact setact_ends h
  | setrgb _ _ => exact setrgb_ends h
  | setled _ => exact setled_ends h
  | rdstat _ => exact rdstat_ends h
  | getled => cases h; exact .succeeded _ _ _ (.nothing _ rfl) nofun
  | cntenc _ => cases h; exact .succeeded _ _ _ (.nothing _ rfl) nofun
  | getprof _ | dpienc _ _ | dpidec _ | affenc _ _ | affdec _ _ | ledenc _ | leddec _ | cntdec _
    | ledSteady _ _ _ | ledBreathe _ _ _ | ledBlinkResp _ _ _ | ledBlinkGlow _ _ _ | ledBlinkNeon _ _ _
    | ledHoldResp _ _ _ | ledHoldGlow _ _ _ | ledHoldNeon _ _ _ => exact ends_of_answer h rfl nofun

end Sys2Proof.Machine
end

