-- ==== Sys2Proof/Laws/Flags.lean ====
section
/-! SUPPORT. STATUS bit by bit after a command: what R151 says of LAST_CODE and of the sticky bits, once. -/

namespace Sys2Proof.Machine

/-- The mask `setLastCode` keeps: bits 31 to 8. -/
theorem keepMask_getLsbD (b : Nat) : (0xFFFFFF00#32).getLsbD b = (decide (8 ≤ b) && decide (b < 32)) := by
  by_cases h : b < 32
  · have all : ∀ b : Fin 32, (0xFFFFFF00#32).getLsbD b.val = (decide (8 ≤ b.val) && decide (b.val < 32)) := by decide
    exact all ⟨b, h⟩
  · rw [BitVec.getLsbD_of_ge _ _ (by omega)]
    simp [h]

/-- Bits above LAST_CODE are kept when it is replaced. -/
theorem setLastCode_high (status : Word) (code : Byte) (b : Nat) (h : 8 ≤ b) :
    (setLastCode status code).getLsbD b = status.getLsbD b := by
  have z : (code.zeroExtend 32).getLsbD b = false := by simp [BitVec.getLsbD_of_ge code b h]
  rw [setLastCode, BitVec.getLsbD_or, BitVec.getLsbD_and, z, Bool.or_false]
  by_cases hb : b < 32
  · rw [show (4294967040 : Word) = 0xFFFFFF00#32 from rfl, keepMask_getLsbD]; simp [h, hb]
  · rw [BitVec.getLsbD_of_ge status b (by omega), Bool.false_and]

/-- Replacing LAST_CODE replaces it. -/
@[simp] theorem lastCode_setLastCode (status : Word) (code : Byte) : lastCode (setLastCode status code) = code := by
  apply BitVec.eq_of_getLsbD_eq
  intro b hb
  simp only [lastCode, setLastCode, BitVec.getLsbD_extractLsb', BitVec.getLsbD_or, BitVec.getLsbD_and, Nat.zero_add]
  rw [show (4294967040 : Word) = 0xFFFFFF00#32 from rfl, keepMask_getLsbD]
  simp [show ¬ 8 ≤ b by omega, hb, show b < 32 by omega]

@[simp] theorem lastCode_statusOnSuccess (status : Word) : lastCode (statusOnSuccess status) = 0 := by
  simp [statusOnSuccess]

theorem statusOnSuccess_high (status : Word) (b : Nat) (h : 8 ≤ b) :
    (statusOnSuccess status).getLsbD b = status.getLsbD b := setLastCode_high status 0 b h

theorem stickyMask_getLsbD (k : ExcKind) (b : Nat) : (1#32 <<< stickyBit k).getLsbD b = decide (b = stickyBit k) := by
  have lt : stickyBit k < 32 := by cases k <;> decide
  by_cases h : b < 32
  · have all : ∀ (k : Fin 32) (b : Fin 32), (1#32 <<< k.val).getLsbD b.val = decide (b.val = k.val) := by decide
    exact all ⟨stickyBit k, lt⟩ ⟨b, h⟩
  · rw [BitVec.getLsbD_of_ge _ _ (by omega)]
    simp; omega

@[simp] theorem lastCode_statusOnRaise (status : Word) (k : ExcKind) :
    lastCode (statusOnRaise status k) = BitVec.ofNat 8 k.code := by
  apply BitVec.eq_of_getLsbD_eq
  intro b hb
  have s : (1#32 <<< stickyBit k).getLsbD b = false := by
    have ne : b ≠ stickyBit k := by cases k <;> simp only [stickyBit, ExcKind.code] <;> omega
    rw [stickyMask_getLsbD, decide_eq_false ne]
  have l := congrArg (·.getLsbD b) (lastCode_setLastCode status (BitVec.ofNat 8 k.code))
  simp only [lastCode, BitVec.getLsbD_extractLsb'] at l ⊢
  simp only [statusOnRaise, BitVec.getLsbD_or, Nat.zero_add, s, Bool.or_false] at l ⊢
  exact l

/-- Above LAST_CODE, raising sets the sticky bit of its kind and keeps the others (R151). -/
theorem statusOnRaise_high (status : Word) (k : ExcKind) (b : Nat) (h : 8 ≤ b) :
    (statusOnRaise status k).getLsbD b = (status.getLsbD b || decide (b = stickyBit k)) := by
  rw [statusOnRaise, BitVec.getLsbD_or, setLastCode_high _ _ _ h, stickyMask_getLsbD]

end Sys2Proof.Machine
end

