-- ==== Sys2Proof/Laws/Memory.lean ====
section
/-! SUPPORT. The laws of memory: read after write, the canonical form and that every operation keeps it, and the
correspondence between canonical memories and whole reports. -/

namespace Sys2Proof.Machine

/-! ### Read after write -/

theorem Memory.read_write_same (m : Memory) (o : Nat) (v : Byte) : (m.write o v).read o = some v := by
  induction m with
  | nil => simp [Memory.write, Memory.read]
  | cons c m ih =>
    obtain ⟨a, b⟩ := c
    simp only [Memory.write]
    split
    · simp [Memory.read]
    · split
      · rename_i h; simp [Memory.read, h]
      · rename_i h; simp [Memory.read, Ne.symm h, ih]

theorem Memory.read_write_other (m : Memory) (o a : Nat) (v : Byte) (h : a ≠ o) :
    (m.write o v).read a = m.read a := by
  induction m with
  | nil => simp [Memory.write, Memory.read, Ne.symm h]
  | cons c m ih =>
    obtain ⟨x, b⟩ := c
    simp only [Memory.write]
    split
    · simp [Memory.read, Ne.symm h]
    · split
      · rename_i e; subst e; simp [Memory.read, Ne.symm h]
      · simp [Memory.read, ih]

/-- `MemWrite` leaves every offset outside its bytes alone (R11). -/
theorem Memory.read_memWrite_outside (m : Memory) (o n v a : Nat) (h : a < o ∨ o + n ≤ a) :
    (m.memWrite o n v).read a = m.read a := by
  induction n generalizing m o with
  | zero => rfl
  | succ n ih =>
    simp only [Memory.memWrite]
    rw [ih _ _ (by omega), Memory.read_write_other _ _ _ _ (by omega)]

/-- `MemWrite` puts byte `k` of the value, counted from the most significant, at offset `o + k` (R11). -/
theorem Memory.read_memWrite_inside (m : Memory) (o n v k : Nat) (h : k < n) :
    (m.memWrite o n v).read (o + k) = some (BitVec.ofNat 8 (v / 256 ^ (n - 1 - k))) := by
  induction n generalizing m o k with
  | zero => omega
  | succ n ih =>
    simp only [Memory.memWrite]
    cases k with
    | zero =>
      rw [Memory.read_memWrite_outside _ _ _ _ _ (by omega)]
      simp [Memory.read_write_same]
    | succ k =>
      have := ih (m.write o (BitVec.ofNat 8 (v / 256 ^ n))) (o + 1) k (by omega)
      rw [show o + (k + 1) = o + 1 + k by omega, this]
      simp only [Nat.add_sub_cancel]
      congr 4
      omega

/-! ### The canonical form -/

theorem Memory.wf_iff (m : Memory) : m.wf = true ↔ m.map Prod.fst = List.range reportSize := by
  simp [Memory.wf]

/-- A write at an offset already listed keeps the list of offsets. -/
theorem Memory.write_offsets (m : Memory) (o : Nat) (v : Byte) (sorted : (m.map Prod.fst).Pairwise (· < ·))
    (h : o ∈ m.map Prod.fst) : (m.write o v).map Prod.fst = m.map Prod.fst := by
  induction m with
  | nil => simp at h
  | cons c m ih =>
    obtain ⟨a, b⟩ := c
    simp only [List.map_cons, List.pairwise_cons, List.mem_cons] at sorted h
    simp only [Memory.write]
    split
    · rename_i lt
      rcases h with h | h
      · omega
      · have := sorted.1 o h; omega
    · split
      · rfl
      · rename_i ne
        rw [List.map_cons, ih sorted.2 (h.resolve_left ne), List.map_cons]

/-- Writing a byte of the address space keeps the canonical form. -/
theorem Memory.write_wf (m : Memory) (o : Nat) (v : Byte) (wf : m.wf = true) (h : o < reportSize) :
    (m.write o v).wf = true := by
  rw [Memory.wf_iff] at *
  rw [Memory.write_offsets, wf]
  · rw [wf]; exact List.pairwise_lt_range
  · rw [wf]; simpa using h

/-- `MemWrite` inside the address space keeps the canonical form. -/
theorem Memory.memWrite_wf (m : Memory) (o n v : Nat) (wf : m.wf = true) (h : o + n ≤ reportSize) :
    (m.memWrite o n v).wf = true := by
  induction n generalizing m o with
  | zero => exact wf
  | succ n ih => exact ih _ _ (Memory.write_wf _ _ _ wf (by omega)) (by omega)

theorem Memory.ofReport_wf (B : Report) : (Memory.ofReport B).wf = true := by
  rw [Memory.wf_iff]
  apply List.ext_getElem
  · simp [Memory.ofReport]
  · intro i h1 h2
    simp [Memory.ofReport]

/-! ### Canonical memories are reports -/

/-- What a memory with rising offsets lists is what it reads. -/
theorem Memory.read_of_mem (m : Memory) (sorted : (m.map Prod.fst).Pairwise (· < ·)) (o : Nat) (b : Byte)
    (h : (o, b) ∈ m) : m.read o = some b := by
  induction m with
  | nil => simp at h
  | cons c m ih =>
    obtain ⟨a, x⟩ := c
    simp only [List.map_cons, List.pairwise_cons] at sorted
    simp only [List.mem_cons] at h
    simp only [Memory.read]
    rcases h with h | h
    · simp_all
    · have lt := sorted.1 o (List.mem_map_of_mem h)
      rw [if_neg (by omega)]
      exact ih sorted.2 h

theorem Memory.read_unlisted (m : Memory) (o : Nat) (h : o ∉ m.map Prod.fst) : m.read o = none := by
  induction m with
  | nil => rfl
  | cons c m ih =>
    obtain ⟨a, x⟩ := c
    simp only [List.map_cons, List.mem_cons, not_or] at h
    simp [Memory.read, Ne.symm h.1, ih h.2]

theorem Memory.wf_sorted (m : Memory) (wf : m.wf = true) : (m.map Prod.fst).Pairwise (· < ·) := by
  rw [(Memory.wf_iff m).mp wf]; exact List.pairwise_lt_range

theorem Memory.wf_length (m : Memory) (wf : m.wf = true) : m.length = reportSize := by
  simpa using congrArg List.length ((Memory.wf_iff m).mp wf)

/-- Entry `o` of a canonical memory is offset `o` and the byte read there. -/
theorem Memory.wf_getElem (m : Memory) (wf : m.wf = true) (o : Nat) (h : o < m.length) :
    m[o].1 = o ∧ m.read o = some m[o].2 := by
  have e := (Memory.wf_iff m).mp wf
  have h1 : (m.map Prod.fst)[o]'(by simpa using h) = o := by simp [e]
  have h2 : m[o].1 = o := by simpa using h1
  refine ⟨h2, Memory.read_of_mem m (Memory.wf_sorted m wf) o _ ?_⟩
  have := List.getElem_mem h
  rwa [show m[o] = (o, m[o].2) from Prod.ext h2 rfl] at this

/-- A canonical memory has a byte at exactly the offsets 0 to 153 (R38). -/
theorem Memory.read_isSome_iff (m : Memory) (wf : m.wf = true) (o : Nat) : (m.read o).isSome = true ↔ o < reportSize := by
  have hl := Memory.wf_length m wf
  constructor
  · intro h
    apply Classical.byContradiction
    intro ge
    rw [Memory.read_unlisted m o (by rw [(Memory.wf_iff m).mp wf]; simpa using ge)] at h
    simp at h
  · intro h
    rw [(Memory.wf_getElem m wf o (by omega)).2]
    rfl

/-- Two canonical memories that read alike are the same list. -/
theorem Memory.wf_ext (m n : Memory) (hm : m.wf = true) (hn : n.wf = true)
    (h : ∀ o, o < reportSize → m.read o = n.read o) : m = n := by
  have lm := Memory.wf_length m hm
  have ln := Memory.wf_length n hn
  apply List.ext_getElem (by omega)
  intro o h1 h2
  have a := Memory.wf_getElem m hm o h1
  have b := Memory.wf_getElem n hn o h2
  have e := h o (by omega)
  rw [a.2, b.2] at e
  exact Prod.ext (a.1.trans b.1.symm) (Option.some.inj e)

theorem Memory.read_ofReport (B : Report) (o : Nat) (h : o < reportSize) : (Memory.ofReport B).read o = some B[o] := by
  apply Memory.read_of_mem _ (Memory.wf_sorted _ (Memory.ofReport_wf B))
  exact List.mem_map.mpr ⟨⟨o, h⟩, List.mem_finRange _, rfl⟩

/-- The bytes of a stored report, in offset order, are the report's (R42). -/
theorem Memory.ofReport_bytes (B : Report) : (Memory.ofReport B).map Prod.snd = B.toList := by
  apply List.ext_getElem
  · simp [Memory.ofReport]
  · intro i h1 h2
    simp [Memory.ofReport]

theorem Memory.toReport?_ofReport (B : Report) : (Memory.ofReport B).toReport? = some B := by
  simp only [Memory.toReport?, Memory.allBytes?, Memory.ofReport_wf, if_true, Memory.ofReport_bytes, reportOfBytes]
  rw [dif_pos (by simp)]
  rfl

/-- A canonical memory is a stored report, and only that. -/
theorem Memory.wf_iff_ofReport (m : Memory) : m.wf = true ↔ ∃ B, m = Memory.ofReport B := by
  constructor
  · intro wf
    have hl := Memory.wf_length m wf
    refine ⟨⟨⟨m.map Prod.snd⟩, by simpa using hl⟩, Memory.wf_ext _ _ wf (Memory.ofReport_wf _) ?_⟩
    intro o h
    rw [Memory.read_ofReport _ o h, (Memory.wf_getElem m wf o (by omega)).2]
    simp
  · rintro ⟨B, rfl⟩; exact Memory.ofReport_wf B

theorem Memory.toReport?_eq_some (m : Memory) (B : Report) : m.toReport? = some B ↔ m = Memory.ofReport B := by
  constructor
  · intro h
    by_cases wf : m.wf = true
    · obtain ⟨B', rfl⟩ := (Memory.wf_iff_ofReport m).mp wf
      rw [Memory.toReport?_ofReport] at h
      rw [Option.some.inj h]
    · simp [Memory.toReport?, Memory.allBytes?, wf] at h
  · rintro rfl; exact Memory.toReport?_ofReport B

/-- A write to a stored report is the report with that byte replaced. -/
theorem Memory.write_ofReport (B : Report) (o : Nat) (v : Byte) (h : o < reportSize) :
    (Memory.ofReport B).write o v = Memory.ofReport (B.set o v) := by
  apply Memory.wf_ext _ _ (Memory.write_wf _ _ _ (Memory.ofReport_wf B) h) (Memory.ofReport_wf _)
  intro a ha
  rw [Memory.read_ofReport _ a ha]
  by_cases e : a = o
  · subst e; simp [Memory.read_write_same]
  · rw [Memory.read_write_other _ _ _ _ e, Memory.read_ofReport _ a ha]
    simp [Vector.getElem_set_ne, Ne.symm e]

end Sys2Proof.Machine
end

