-- ==== Sys2Proof/Laws/PerInstr.lean ====
section
/-! SUPPORT. Facts made for each instruction on its own. Family `OpcodeSpace`: the words of an instruction stand in
its own opcode space under its own opcode (30_encoding.md R58, R70). -/

namespace Sys2Proof.Laws.OpcodeSpace

/-- The opcode that selects an instruction: OPC of R58 for a command, the mode byte of R108 for an LED row. -/
def opcode : Instr → Byte
  | .loaddef => 0x01
  | .load => 0x02
  | .rdraw => 0x03
  | .rdbyte _ => 0x04
  | .rdfld _ => 0x05
  | .getprof _ => 0x06
  | .getled => 0x07
  | .setdpi _ _ => 0x08
  | .setact _ _ => 0x09
  | .setrgb _ _ => 0x0A
  | .setled _ => 0x0B
  | .rdstat _ => 0x0C
  | .dpienc _ _ => 0x10
  | .dpidec _ => 0x11
  | .affenc _ _ => 0x12
  | .affdec _ _ => 0x13
  | .ledenc _ => 0x14
  | .leddec _ => 0x15
  | .cntenc _ => 0x16
  | .cntdec _ => 0x17
  | .ledSteady _ _ _ => 0x28
  | .ledBreathe _ _ _ => 0x22
  | .ledBlinkResp _ _ _ => 0x42
  | .ledBlinkGlow _ _ _ => 0x44
  | .ledBlinkNeon _ _ _ => 0x48
  | .ledHoldResp _ _ _ => 0x82
  | .ledHoldGlow _ _ _ => 0x84
  | .ledHoldNeon _ _ _ => 0x88

/-- The opcode field of what is presented: OPC of a command word, the mode byte of a quad. -/
def opcodeField : Presented → Byte
  | .command w => opcField w
  | .quad q => q.extractLsb' 24 8

/-- The words of the instruction carry its opcode. -/
def Statement (i : Instr) : Prop := opcodeField (encode i) = opcode i

theorem loaddef : Statement .loaddef := opcField_packCommand _ _ _
theorem load : Statement .load := opcField_packCommand _ _ _
theorem rdraw : Statement .rdraw := opcField_packCommand _ _ _
theorem rdbyte (o : Nat) : Statement (.rdbyte o) := opcField_packCommand _ _ _
theorem rdfld (f : Nat) : Statement (.rdfld f) := opcField_packCommand _ _ _
theorem getprof (p : Nat) : Statement (.getprof p) := opcField_packCommand _ _ _
theorem getled : Statement .getled := opcField_packCommand _ _ _
theorem setdpi (p d : Nat) : Statement (.setdpi p d) := opcField_packCommand _ _ _
theorem setact (p : Nat) (a : Bool) : Statement (.setact p a) := opcField_packCommand _ _ _
theorem setrgb (p : Nat) (c : Word24) : Statement (.setrgb p c) := opcField_packCommand _ _ _
theorem setled (d : Word) : Statement (.setled d) := opcField_packCommand _ _ _
theorem rdstat (r : Nat) : Statement (.rdstat r) := opcField_packCommand _ _ _
theorem dpienc (a : Bool) (d : Nat) : Statement (.dpienc a d) := opcField_packCommand _ _ _
theorem dpidec (r : Byte) : Statement (.dpidec r) := opcField_packCommand _ _ _
theorem affenc (f i : Nat) : Statement (.affenc f i) := opcField_packCommand _ _ _
theorem affdec (f : Nat) (r : Byte) : Statement (.affdec f r) := opcField_packCommand _ _ _
theorem ledenc (d : Word) : Statement (.ledenc d) := opcField_packCommand _ _ _
theorem leddec (q : Word) : Statement (.leddec q) := opcField_packCommand _ _ _
theorem cntenc (m : BitVec 5) : Statement (.cntenc m) := opcField_packCommand _ _ _
theorem cntdec (r : Byte) : Statement (.cntdec r) := opcField_packCommand _ _ _
theorem ledSteady (a b c : Byte) : Statement (.ledSteady a b c) := quadOfBytes_mode _ _ _ _
theorem ledBreathe (a b c : Byte) : Statement (.ledBreathe a b c) := quadOfBytes_mode _ _ _ _
theorem ledBlinkResp (a b c : Byte) : Statement (.ledBlinkResp a b c) := quadOfBytes_mode _ _ _ _
theorem ledBlinkGlow (a b c : Byte) : Statement (.ledBlinkGlow a b c) := quadOfBytes_mode _ _ _ _
theorem ledBlinkNeon (a b c : Byte) : Statement (.ledBlinkNeon a b c) := quadOfBytes_mode _ _ _ _
theorem ledHoldResp (a b c : Byte) : Statement (.ledHoldResp a b c) := quadOfBytes_mode _ _ _ _
theorem ledHoldGlow (a b c : Byte) : Statement (.ledHoldGlow a b c) := quadOfBytes_mode _ _ _ _
theorem ledHoldNeon (a b c : Byte) : Statement (.ledHoldNeon a b c) := quadOfBytes_mode _ _ _ _

end Sys2Proof.Laws.OpcodeSpace
end

