-- ==== Sys2Proof/Tests/Slice0.lean ====
section
/-! SUPPORT. Small tests. Expected values are the spec's own: the corner cases and examples of the rules named, R76, and
the test image T of 95_test_vectors.md. Then, for each obligation with hypotheses, a witness that meets them. -/

open Sys2Proof Sys2Proof.Machine Sys2Proof.Claims

namespace Sys2Proof.Tests

/-! ### WellFormed: one ill-formed term for each check -/

theorem test_wf_accepts_greatest_fields :
    (Instr.setdpi 255 255).wellFormed = true ∧ (Instr.affenc 255 255).wellFormed = true := by decide

theorem test_wf_rdbyte : (Instr.rdbyte 256).wellFormed = false := by decide
theorem test_wf_rdfld : (Instr.rdfld 256).wellFormed = false := by decide
theorem test_wf_getprof : (Instr.getprof 256).wellFormed = false := by decide
theorem test_wf_setdpi_pid : (Instr.setdpi 256 0).wellFormed = false := by decide
theorem test_wf_setdpi_dpi : (Instr.setdpi 0 256).wellFormed = false := by decide
theorem test_wf_setact : (Instr.setact 256 true).wellFormed = false := by decide
theorem test_wf_setrgb : (Instr.setrgb 256 0).wellFormed = false := by decide
theorem test_wf_rdstat : (Instr.rdstat 256).wellFormed = false := by decide
theorem test_wf_dpienc : (Instr.dpienc true 256).wellFormed = false := by decide
theorem test_wf_affenc_family : (Instr.affenc 256 1).wellFormed = false := by decide
theorem test_wf_affenc_id : (Instr.affenc 0 256).wellFormed = false := by decide
theorem test_wf_affdec : (Instr.affdec 256 0).wellFormed = false := by decide

/-! ### Decoding: one word of each constructor, written out from R58, R59, R62 and R108 -/

theorem test_decode_loaddef : decode (.command 0x0100000000000000) = .ok .loaddef := by decide
theorem test_decode_load : decode (.command 0x0200000000000000) = .ok .load := by decide
theorem test_decode_rdraw : decode (.command 0x0300000000000000) = .ok .rdraw := by decide
theorem test_decode_rdbyte : decode (.command 0x0400000000000099) = .ok (.rdbyte 153) := by decide
theorem test_decode_rdfld : decode (.command 0x050F000000000000) = .ok (.rdfld 15) := by decide
theorem test_decode_getprof : decode (.command 0x0604000000000000) = .ok (.getprof 4) := by decide
theorem test_decode_getled : decode (.command 0x0700000000000000) = .ok .getled := by decide
theorem test_decode_setdpi : decode (.command 0x0802000000000028) = .ok (.setdpi 2 40) := by decide
theorem test_decode_setact : decode (.command 0x0903000000000001) = .ok (.setact 3 true) := by decide
theorem test_decode_setrgb : decode (.command 0x0A04000000123456) = .ok (.setrgb 4 0x123456) := by decide
theorem test_decode_setled : decode (.command 0x0B00000080050302) = .ok (.setled 0x80050302) := by decide
theorem test_decode_rdstat : decode (.command 0x0C01000000000000) = .ok (.rdstat 1) := by decide
theorem test_decode_dpienc : decode (.command 0x1000000000000104) = .ok (.dpienc true 4) := by decide
theorem test_decode_dpidec : decode (.command 0x1100000000000085) = .ok (.dpidec 0x85) := by decide
theorem test_decode_affenc : decode (.command 0x120200000000000F) = .ok (.affenc 2 15) := by decide
theorem test_decode_affdec : decode (.command 0x1301000000000052) = .ok (.affdec 1 0x52) := by decide
theorem test_decode_ledenc : decode (.command 0x1400000080050302) = .ok (.ledenc 0x80050302) := by decide
theorem test_decode_leddec : decode (.command 0x1500000042050322) = .ok (.leddec 0x42050322) := by decide
theorem test_decode_cntenc : decode (.command 0x160000000000001B) = .ok (.cntenc 0x1B) := by decide
theorem test_decode_cntdec : decode (.command 0x1700000000000024) = .ok (.cntdec 0x24) := by decide
theorem test_decode_ledSteady : decode (.quad 0x28AABB52) = .ok (.ledSteady 0xAA 0xBB 0x52) := by decide
theorem test_decode_ledBreathe : decode (.quad 0x22000012) = .ok (.ledBreathe 0 0 0x12) := by decide
theorem test_decode_ledBlinkResp : decode (.quad 0x42050322) = .ok (.ledBlinkResp 5 3 0x22) := by decide
theorem test_decode_ledBlinkGlow : decode (.quad 0x440101A2) = .ok (.ledBlinkGlow 1 1 0xA2) := by decide
theorem test_decode_ledBlinkNeon : decode (.quad 0x480203F0) = .ok (.ledBlinkNeon 2 3 0xF0) := by decide
theorem test_decode_ledHoldResp : decode (.quad 0x82010012) = .ok (.ledHoldResp 1 0 0x12) := by decide
theorem test_decode_ledHoldGlow : decode (.quad 0x84010012) = .ok (.ledHoldGlow 1 0 0x12) := by decide
theorem test_decode_ledHoldNeon : decode (.quad 0x88010010) = .ok (.ledHoldNeon 1 0 0x10) := by decide

/-- R67: the ends of the three unassigned ranges. -/
theorem test_decode_refuses_unassigned :
    decode (.command 0x0000000000000000) = .error (.unassignedOpcode 0x00) ∧
    decode (.command 0x0D00000000000000) = .error (.unassignedOpcode 0x0D) ∧
    decode (.command 0x0F00000000000000) = .error (.unassignedOpcode 0x0F) ∧
    decode (.command 0x1800000000000000) = .error (.unassignedOpcode 0x18) ∧
    decode (.command 0xFF00FFFF00000000) = .error (.unassignedOpcode 0xFF) := by decide

/-- R68: DATA, SEL and RSV bits that must be 0. -/
theorem test_decode_refuses_mask_bits :
    decode (.command 0x0100000000000001) = .error .maskMismatch ∧
    decode (.command 0x0900000000000002) = .error .maskMismatch ∧
    decode (.command 0x0A00000001000000) = .error .maskMismatch ∧
    decode (.command 0x1001000000000004) = .error .maskMismatch ∧
    decode (.command 0x0500000100000000) = .error .maskMismatch ∧
    decode (.command 0x1600000000000020) = .error .maskMismatch := by decide

/-- R70, R117: 0x24 is not a mode. -/
theorem test_decode_refuses_unknown_mode : decode (.quad 0x24000012) = .error (.unknownLedMode 0x24) := by decide

/-- The opcode table's numbering (log 11). -/
theorem test_table_words :
    decodeTableWord 64 0x0802000000000028 = some (.setdpi 2 40) ∧
    decodeTableWord 8 0x28 = some (.ledSteady 0 0 0) ∧
    decodeTableWord 32 0x22030542 = some (.ledBlinkResp 5 3 0x22) ∧
    decodeTableWord 8 0x99 = none := by decide

/-! ### One step: the machine after LOAD of the test image T -/

/-- The cache the test image T decodes to, from the table of 95_test_vectors.md. -/
def imageCache : Cache where
  prof := #v[⟨true, 0, 0xFF0000⟩, ⟨true, 1, 0x00FF00⟩, ⟨true, 2, 0x0000FF⟩, ⟨true, 3, 0xFFFF00⟩, ⟨true, 4, 0xFFFFFF⟩]
  led := .steady 5

/-- The machine holding the test image T. -/
def loaded : State := { State.reset with rpt := Memory.ofReport sampleReport, cache := imageCache }

def respOf : Result → Option Response
  | .next t => t.resp
  | _ => none

/-- RESP_CODE, LAST_CODE and LAST_INFO. -/
def recordOf : Result → Option (Byte × Byte × Word)
  | .next t => t.resp.map fun r => (r.code, lastCode t.status, t.lastInfo)
  | _ => none

def bytesOf (offsets : List Nat) : Result → List (Option Byte)
  | .next t => offsets.map t.rpt.read
  | _ => []

theorem image_decodes : decodeAll sampleReport = .ok imageCache := by decide

theorem test_loaddef_succeeds : recordOf (exec .loaddef { loaded with status := 0x501, lastInfo := 7 }) = some (0, 0, 0) := by
  decide
theorem test_load_image : respOf (exec .load { State.reset with win := sampleBytes }) = some ⟨0, 0, []⟩ := by decide +kernel
theorem test_load_short : recordOf (exec .load { loaded with win := [1, 2, 3] }) = some (1, 1, 0x01000003) := by decide
theorem test_rdraw_image : respOf (exec .rdraw loaded) = some ⟨0, 0, sampleBytes⟩ := by decide +kernel
theorem test_rdbyte_opaque : respOf (exec (.rdbyte 150) loaded) = some ⟨0, 0x5A, []⟩ := by decide
theorem test_rdbyte_past_end : recordOf (exec (.rdbyte 154) loaded) = some (2, 2, 0x1100009A) := by decide
theorem test_rdfld_colour : respOf (exec (.rdfld 11) loaded) = some ⟨0, 0xFF0000, []⟩ := by decide
theorem test_rdfld_selector : recordOf (exec (.rdfld 16) loaded) = some (2, 2, 0x10000010) := by decide
/-- R124: its example. -/
theorem test_getprof : respOf (exec (.getprof 4) loaded) = some ⟨0, 0x84FFFFFF, []⟩ := by decide
/-- R125: its example. -/
theorem test_getled : respOf (exec .getled loaded) = some ⟨0, 0x00000005, []⟩ := by decide
theorem test_setdpi_keeps_active_flag : bytesOf [76] (exec (.setdpi 2 40) loaded) = [some 0x29] := by decide
theorem test_setdpi_127 : recordOf (exec (.setdpi 1 127) loaded) = some (1, 1, 0x0500007F) := by decide
/-- R127: its example. -/
theorem test_setact : bytesOf [71, 76] (exec (.setact 2 false) loaded) = [some 0x24, some 0x83] := by decide
/-- R128: its example. -/
theorem test_setrgb : bytesOf [111, 112, 113, 114] (exec (.setrgb 4 0x123456) loaded) =
    [some 0, some 0x12, some 0x34, some 0x56] := by decide
/-- R129: its example. -/
theorem test_setled : bytesOf [93, 94, 95, 96] (exec (.setled 0x80050302) loaded) =
    [some 0x42, some 0x05, some 0x03, some 0x22] := by decide
theorem test_setled_invalid : recordOf (exec (.setled 0xC0010101) loaded) = some (2, 2, 0x11010101) := by decide
/-- R141: its example, after SETDPI p1, 127. -/
theorem test_rdstat : respOf (exec (.rdstat 0) (loaded.raise (.badDpiIndex 127))) = some ⟨0, 0x00000101, []⟩ ∧
    respOf (exec (.rdstat 1) (loaded.raise (.badDpiIndex 127))) = some ⟨0, 0x0500007F, []⟩ := by decide
/-- R96: its example and a corner case. -/
theorem test_dpienc : respOf (exec (.dpienc false 4) loaded) = some ⟨0, 0x85, []⟩ ∧
    respOf (exec (.dpienc true 126) loaded) = some ⟨0, 0x7F, []⟩ := by decide
/-- R97: corner cases. -/
theorem test_dpidec : respOf (exec (.dpidec 0x7F) loaded) = some ⟨0, 0x17E, []⟩ ∧
    recordOf (exec (.dpidec 0x80) loaded) = some (1, 1, 0x02000080) := by decide
/-- R98: its example and corner cases. -/
theorem test_affenc : respOf (exec (.affenc 0 10) loaded) = some ⟨0, 0xA2, []⟩ ∧
    respOf (exec (.affenc 2 15) loaded) = some ⟨0, 0xF0, []⟩ ∧
    recordOf (exec (.affenc 0 11) loaded) = some (2, 2, 0x1100000B) := by decide
/-- R99: its example and corner cases. -/
theorem test_affdec : respOf (exec (.affdec 1 0x52) loaded) = some ⟨0, 5, []⟩ ∧
    recordOf (exec (.affdec 0 0x02) loaded) = some (1, 1, 0x06000002) ∧
    recordOf (exec (.affdec 0 0xB2) loaded) = some (1, 1, 0x060000B2) := by decide
/-- R116: corner cases. -/
theorem test_ledenc : respOf (exec (.ledenc 0xA002030F) loaded) = some ⟨0, 0x480203F0, []⟩ ∧
    recordOf (exec (.ledenc 0x01000005) loaded) = some (2, 2, 0x11000005) := by decide
/-- R117: its example and corner cases. -/
theorem test_leddec : respOf (exec (.leddec 0x42050322) loaded) = some ⟨0, 0x80050302, []⟩ ∧
    recordOf (exec (.leddec 0x48000310) loaded) = some (1, 1, 0x04005E00) := by decide
/-- R103: its example. -/
theorem test_cntenc : respOf (exec (.cntenc 0x1B) loaded) = some ⟨0, 0x24, []⟩ := by decide
/-- R104: its example and a corner case. -/
theorem test_cntdec : respOf (exec (.cntdec 0x24) loaded) = some ⟨0, 4, []⟩ ∧
    recordOf (exec (.cntdec 0x26) loaded) = some (1, 1, 0x07000026) := by decide
/-- R116 read backwards, and R117: the eight rows. -/
theorem test_led_rows :
    respOf (exec (.ledSteady 0xAA 0xBB 0x52) loaded) = some ⟨0, 0x00000005, []⟩ ∧
    respOf (exec (.ledBreathe 0 0 0x12) loaded) = some ⟨0, 0x40000001, []⟩ ∧
    respOf (exec (.ledBlinkResp 5 3 0x22) loaded) = some ⟨0, 0x80050302, []⟩ ∧
    respOf (exec (.ledBlinkGlow 1 1 0xA2) loaded) = some ⟨0, 0x9001010A, []⟩ := by decide
theorem test_led_rows_nested :
    respOf (exec (.ledBlinkNeon 2 3 0xF0) loaded) = some ⟨0, 0xA002030F, []⟩ ∧
    respOf (exec (.ledHoldResp 1 0 0x12) loaded) = some ⟨0, 0xC0010001, []⟩ ∧
    respOf (exec (.ledHoldGlow 1 0 0x12) loaded) = some ⟨0, 0xD0010001, []⟩ ∧
    respOf (exec (.ledHoldNeon 1 0 0x10) loaded) = some ⟨0, 0xE0010001, []⟩ ∧
    recordOf (exec (.ledHoldNeon 1 0 0x11) loaded) = some (1, 1, 0x04006011) := by decide

/-! ### The step -/

/-- R167: after reset the block waits for the first command. -/
theorem test_step_waits : step State.reset = .next State.reset := rfl
/-- R66: an unassigned opcode is reported before the other bits. -/
theorem test_step_unassigned :
    recordOf (step (State.reset.withFetchWord 64 0x1800000100000001)) = some (3, 3, 0x20000018) := by decide
theorem test_step_mask : recordOf (step (State.reset.withFetchWord 64 0x0500000100000000)) = some (3, 3, 0x21000000) := by
  decide
theorem test_step_command :
    respOf (step (State.reset.withFetchWord 64 0x1000000000000004)) = some ⟨0, 0x85, []⟩ := by decide
/-- R117: the mode byte alone, its arguments zero: brightness 0 has no id. -/
theorem test_step_led_row : recordOf (step (State.reset.withFetchWord 8 0x28)) = some (1, 1, 0x04006000) := by decide

/-! ### Assembler: the examples of R76, R79 to R129 -/

theorem test_assemble_pseudo :
    assembleLine "deact p2 ; off".toList = some [0x0902000000000000] ∧
    assembleLine "setprof p4, 1, 40, 0x123456".toList =
      some [0x0904000000000001, 0x0804000000000028, 0x0A04000000123456] ∧
    assembleLine "rdfld rgb1".toList = some [0x050C000000000000] := by decide +kernel
theorem test_assemble_refuses :
    assembleLine "setdpi p5, 1".toList = none ∧ assembleLine "load 3".toList = none := by decide +kernel

/-! ### Witnesses: states and operands that meet the hypotheses of each obligation -/

theorem loaded_inv : Inv loaded where
  report := Memory.ofReport_wf sampleReport
  lockstep := by
    unfold Lockstep
    rw [show loaded.rpt = Memory.ofReport sampleReport from rfl, Memory.toReport?_ofReport]
    exact congrArg some image_decodes
  record := by decide
  response := by intro r h; cases h

theorem image_on_win : ({ loaded with win := sampleBytes } : State).win = sampleReport.toList := rfl

/-- The test image with one byte replaced. -/
def imageWith (o : Fin 154) (b : Byte) : Report := sampleReport.set o.val b

theorem witness_DecodeInvertsEncode : (Instr.affenc 255 255).wellFormed = true := by decide
theorem witness_EncodeInvertsDecode : decode (.command 0x12FF0000000000FF) = .ok (.affenc 255 255) := by decide

theorem witness_UnassignedOpcodesRaise :
    bitsOf (0x0000000000000001 : CmdWord) 63 56 = 0 ∧
    (0x0D ≤ bitsOf (0x0D00000000000000 : CmdWord) 63 56 ∧ bitsOf (0x0F00000000000000 : CmdWord) 63 56 ≤ 0x0F) ∧
    0x18 ≤ bitsOf (0x1800000000000000 : CmdWord) 63 56 ∧ 0x18 ≤ bitsOf (0xFF00000000000000 : CmdWord) 63 56 := by decide

theorem witness_MaskMismatchRaises : ∃ row ∈ commandTable,
    bitsOf (0x0900000000000002 : CmdWord) 63 56 = bitsOf row.match_ 63 56 ∧
    (0x0900000000000002 : CmdWord) &&& row.mask ≠ row.match_ :=
  ⟨⟨0xFF00FFFFFFFFFFFE, 0x0900000000000000, fun w => .setact (selField w) (w.getLsbD 0)⟩,
    List.mem_append_left _ (by simp [modelRows]), by decide, by decide⟩

theorem witness_ReservedFieldRaises : bitsOf (0x0500000100000000 : CmdWord) 63 56 ∈ assignedOpcodes ∧
    bitsOf (0x0500000100000000 : CmdWord) 47 32 ≠ 0 := by decide

theorem witness_SelectorRules : (15 < 16 ∧ 16 < 256) ∧ (4 < 5 ∧ 5 < 256) ∧ (1 < 2 ∧ 2 < 256) ∧ (5 < 6 ∧ 6 < 256) ∧
    bitsOf (0x1701000000000000 : CmdWord) 63 56 ∈ opcodesWithoutSelector ∧
    bitsOf (0x1701000000000000 : CmdWord) 55 48 ≠ 0 := by decide

theorem witness_OperandViolationsRaise :
    (153 < 154 ∧ 154 < 256) ∧ (126 < 127 ∧ 127 < 256) ∧ bitsOf (0x80 : Byte) 6 0 = 0 ∧
    (familyOfSel 0 = .ok .brightness ∧ Family.brightness.hasId 0 = false ∧ Family.brightness.hasId 11 = false) ∧
    (familyOfSel 5 = .ok .holdTime ∧ affOk .holdTime 0 = false) ∧
    ((0x1F : Byte).toNat < 0x20 ∧ 0x25 < (0x26 : Byte).toNat) ∧ descOk 0x30000001 = false := by decide

theorem unknown_mode (m : Byte) (h : ledShape? m = none) : ∀ sh : LedShape, sh.row.mode ≠ m := by
  intro sh e
  subst e
  revert h
  rcases sh with _ | _ | k | k <;> (try cases k) <;> decide

theorem witness_LeddecChecksInOrder :
    (∀ sh : LedShape, sh.row.mode ≠ 0x99) ∧
    ((LedShape.blinkEffect .neon).row.mode = 0x48 ∧ (LedShape.blinkEffect .neon).row.fam1 = some .frequency ∧
      (LedShape.blinkEffect .neon).row.fam2 = some .times) ∧
    affOk .frequency 0 = false ∧ (slotDecodes (some .frequency) 5 ∧ affOk .times 0 = false) ∧
    (slotDecodes (some .frequency) 5 ∧ slotDecodes (some .times) 3 ∧ affOk .neonSpeed 0x11 = false) :=
  ⟨unknown_mode 0x99 (by decide), by decide, by decide, ⟨fun f h => by cases h; decide, by decide⟩,
    fun f h => by cases h; decide, fun f h => by cases h; decide, by decide⟩

theorem image_dpi_bytes_ok : dpiBytesOk sampleReport := by unfold dpiBytesOk; decide

theorem witness_LoadChecksInOrder_length : ({ loaded with win := sampleBytes.tail } : State).win.length ≠ 154 := by decide +kernel

theorem witness_LoadChecksInOrder_dpi :
    (bitsOf (dpiByteAt (imageWith 77 0x80) 3) 6 0 = 0 ∧
      ∀ j : Fin 5, j < 3 → bitsOf (dpiByteAt (imageWith 77 0x80) j) 6 0 ≠ 0) ∧
    (dpiBytesOk (imageWith 93 0x99) ∧ ∀ sh : LedShape, sh.row.mode ≠ (imageWith 93 0x99)[93]) ∧
    (bitsOf ((imageWith 77 0x80).set 93 0x99)[77] 6 0 = 0 ∧
      (∀ j : Fin 5, j < 3 → bitsOf (dpiByteAt ((imageWith 77 0x80).set 93 0x99) j) 6 0 ≠ 0) ∧
      ∀ sh : LedShape, sh.row.mode ≠ ((imageWith 77 0x80).set 93 0x99)[93]) :=
  ⟨by decide, ⟨by unfold dpiBytesOk; decide, unknown_mode _ (by decide)⟩, by decide, by decide, unknown_mode _ (by decide)⟩

/-- The test image with the LED bytes 0x48, `a1`, `a2`, `a3`. -/
def blinkImage (a1 a2 a3 : Byte) : Report := (((sampleReport.set 93 0x48).set 94 a1).set 95 a2).set 96 a3

theorem witness_LoadChecksInOrder_led :
    (LedShape.blinkEffect .neon).row.mode = (blinkImage 0 0 0)[93] ∧
    (dpiBytesOk (blinkImage 0 0 0) ∧ affOk .frequency (blinkImage 0 0 0)[94] = false) ∧
    (dpiBytesOk (blinkImage 5 0 0) ∧ slotDecodes (some .frequency) (blinkImage 5 0 0)[94] ∧
      affOk .times (blinkImage 5 0 0)[95] = false) ∧
    (dpiBytesOk (blinkImage 5 3 0x11) ∧ slotDecodes (some .frequency) (blinkImage 5 3 0x11)[94] ∧
      slotDecodes (some .times) (blinkImage 5 3 0x11)[95] ∧ affOk .neonSpeed (blinkImage 5 3 0x11)[96] = false) :=
  ⟨by decide, by unfold dpiBytesOk; decide, ⟨by unfold dpiBytesOk; decide, fun f h => by cases h; decide, by decide⟩,
    ⟨by unfold dpiBytesOk; decide, fun f h => by cases h; decide, fun f h => by cases h; decide, by decide⟩⟩

theorem witness_LoadStoresTheReport : ({ loaded with win := sampleBytes } : State).win = sampleReport.toList ∧
    dpiBytesOk sampleReport ∧ ledDec (quadOf sampleReport) = .ok (.steady 5) := ⟨rfl, image_dpi_bytes_ok, by decide⟩

theorem witness_ResetValues : ({ loaded with pending := [.reset] } : State).pending = .reset :: [] := rfl

theorem witness_RdrawDrivesTheReport : loaded.rpt.wf = true := loaded_inv.report
theorem witness_RdbyteReadsTheByte : loaded.rpt.wf = true ∧ 153 ≤ 153 := ⟨loaded_inv.report, by decide⟩
theorem witness_RdfldReadsTheField : loaded.rpt.wf = true := loaded_inv.report
theorem witness_GetledReturnsTheDescriptor : Lockstep loaded := loaded_inv.lockstep
theorem witness_ReadersAreIdempotent : isReader (.getprof 4) = true ∧ ∃ t, exec (.getprof 4) loaded = .next t :=
  ⟨rfl, _, rfl⟩

theorem blink_ids : slotHasId (LedShape.blinkEffect .respiration).row.fam1 5 = true ∧
    slotHasId (LedShape.blinkEffect .respiration).row.fam2 3 = true ∧
    (LedShape.blinkEffect .respiration).row.fam3.hasId (2 : Byte).toNat = true := by decide

theorem witness_SetledRewritesTheLedBytes :
    (slotHasId (LedShape.blinkEffect .respiration).row.fam1 5 = true ∧
      slotHasId (LedShape.blinkEffect .respiration).row.fam2 3 = true ∧
      (LedShape.blinkEffect .respiration).row.fam3.hasId (2 : Byte).toNat = true) ∧
    (slotHasId LedShape.steady.row.fam1 0 = true ∧ slotHasId LedShape.steady.row.fam2 0 = true ∧
      LedShape.steady.row.fam3.hasId (10 : Byte).toNat = true) := ⟨blink_ids, by decide⟩

theorem witness_MutatorsTouchOnlyTheirFields :
    (∃ t, exec (.setdpi 4 126) loaded = .next t) ∧ (∃ t, exec (.setact 4 false) loaded = .next t) ∧
    (∃ t, exec (.setrgb 4 0) loaded = .next t) ∧ (∃ t, exec (.setled 0x0000000A) loaded = .next t) ∧
    (77 ≠ 74 + 4 ∧ 72 ≠ 74 + 4 ∧ 72 ≠ 71) ∧ (111 < 100 + 3 * 4 ∧ 102 + 3 * 4 < 115) ∧ (92 < 93 ∧ 96 < 97) :=
  ⟨⟨_, rfl⟩, ⟨_, rfl⟩, ⟨_, rfl⟩, ⟨_, rfl⟩, by decide⟩

theorem witness_OnlyLoadsWriteOpaqueBytes : ∃ t, exec (.setact 4 false) loaded = .next t ∧
    Instr.setact 4 false ≠ .load ∧ Instr.setact 4 false ≠ .loaddef ∧ 153 ∈ opaqueOffsets ∧ 0 ∈ opaqueOffsets :=
  ⟨_, rfl, nofun, nofun, by decide⟩

theorem witness_CountFreshFromSetact : CountFresh loaded ∧ (∃ t, exec (.setdpi 0 0) loaded = .next t) ∧
    (∃ t, exec (.setact 4 false) loaded = .next t) ∧ (∃ t, exec .loaddef loaded = .next t) :=
  ⟨by unfold CountFresh; decide, ⟨_, rfl⟩, ⟨_, rfl⟩, ⟨_, rfl⟩⟩

theorem image_loads : exec .load { loaded with win := sampleBytes } =
    .next (({ loaded with win := sampleBytes }.construct sampleReport imageCache).complete 0 []) := by
  have h : loadCheck sampleBytes = .ok (sampleReport, imageCache) := by decide +kernel
  have e : ∀ s : State, s.win = sampleBytes → exec .load s = .next ((s.construct sampleReport imageCache).complete 0 []) := by
    intro s w
    simp only [exec, execLoad, w, h, Except.map, commit]
  exact e _ rfl

theorem witness_CountFreshFromSetact_load :
    ∃ t, exec .load { loaded with win := sampleBytes } = .next t ∧ ∃ r, t.resp = some r ∧ r.code = 0 :=
  ⟨_, image_loads, _, rfl, rfl⟩

theorem witness_SetactRepairsTheCount : Inv loaded := loaded_inv
theorem witness_LedChangesOnlyBySetledAndLoads : ∃ t, exec (.setact 4 false) loaded = .next t ∧
    (∀ d, Instr.setact 4 false ≠ .setled d) := ⟨_, rfl, nofun⟩
theorem witness_MemReadAfterMemWrite : (0x123456 < 256 ^ 3) ∧ 0 < 3 ∧ (99 < 100 ∨ 100 + 3 ≤ 99) ∧
    loaded.rpt.wf = true ∧ 151 + 3 ≤ 154 := ⟨by decide, by decide, by decide, loaded_inv.report, by decide⟩

theorem witness_DpiCommandsCompute : 126 ≤ 126 ∧ bitsOf (0x01 : Byte) 6 0 ≠ 0 ∧ bitsOf (0xFF : Byte) 6 0 ≠ 0 := by decide
theorem witness_AffineCommandsCompute :
    (0, Family.brightness) ∈ [(0, Family.brightness), (1, .breatheSpeed), (2, .neonSpeed), (3, .frequency), (4, .times),
      (5, .holdTime)] ∧ 1 ≤ 10 ∧ 10 ≤ Family.brightness.count := by decide
theorem witness_CountCommandsCompute : (0x20 ≤ (0x20 : Byte).toNat ∧ (0x20 : Byte).toNat ≤ 0x25) ∧
    (0x20 ≤ (0x25 : Byte).toNat ∧ (0x25 : Byte).toNat ≤ 0x25) := by decide

theorem slotHolds_of (fam : Option Family) (id arg : Byte) (h : arg.toNat = slotCode fam id) : slotHolds fam id arg :=
  fun _ => h

theorem witness_LedCommandsCompute :
    slotHasId (LedShape.blinkEffect .respiration).row.fam1 5 = true ∧
    slotHasId (LedShape.blinkEffect .respiration).row.fam2 3 = true ∧
    (LedShape.blinkEffect .respiration).row.fam3.hasId (2 : Byte).toNat = true ∧
    slotHolds (LedShape.blinkEffect .respiration).row.fam1 5 5 ∧
    slotHolds (LedShape.blinkEffect .respiration).row.fam2 3 3 ∧
    slotHolds (some (LedShape.blinkEffect .respiration).row.fam3) 2 0x22 :=
  ⟨blink_ids.1, blink_ids.2.1, blink_ids.2.2, slotHolds_of _ _ _ (by decide), slotHolds_of _ _ _ (by decide),
    slotHolds_of _ _ _ (by decide)⟩

/-- R111: unused slots may hold anything. -/
theorem witness_LedRowsCompute : slotHasId LedShape.steady.row.fam1 0 = true ∧
    slotHasId LedShape.steady.row.fam2 0 = true ∧ LedShape.steady.row.fam3.hasId (5 : Byte).toNat = true ∧
    slotHolds LedShape.steady.row.fam1 0 0xAA ∧ slotHolds LedShape.steady.row.fam2 0 0xBB ∧
    slotHolds (some LedShape.steady.row.fam3) 5 0x52 :=
  ⟨by decide, by decide, by decide, nofun, nofun, slotHolds_of _ _ _ (by decide)⟩

theorem witness_DpiPackerRoundTrip : 126 < 127 ∧ bitsOf (0x81 : Byte) 6 0 ≠ 0 := by decide
theorem witness_AffineRoundTrip : (1 ≤ 15 ∧ 15 ≤ Family.neonSpeed.count) ∧ affOk .neonSpeed 0xF0 = true ∧
    affCode .neonSpeed 15 = affCode .neonSpeed 15 := by decide
theorem witness_LedCodecRoundTrip : (LedConfig.blinkEffect 5 3 (.respiration 2)).representable = true ∧
    ledDec ⟨0x28, 0xAA, 0xBB, 0x52⟩ = .ok (.steady 5) ∧ LedShape.steady.row.mode = 0x28 := by decide
theorem witness_LedEncodingIsLegal : (LedConfig.steadyEffect 1 (.neon 15)).representable = true := by decide
theorem witness_DescriptorsSpellConfigurations : descOk 0x80050302 = true ∧ (LedConfig.steady 10).representable = true := by
  decide
theorem witness_UnusedSlotsAreNotRead : (LedShape.steady.row.fam1.isSome = true → (0xAA : Byte) = 0) ∧
    (LedShape.steady.row.fam2.isSome = true → (0xBB : Byte) = 0) := by decide
theorem witness_CodecAnswersIgnoreTheState : isCodec (.cntdec 0x26) = true ∧ isCodec (.ledHoldNeon 1 0 0x10) = true := by
  decide

theorem witness_ExceptionsArePrecise : (∃ t, runPresented (.command 0x0700000000000000) loaded = .next t) ∧
    (∃ t, runPresented (.command 0x0D00000000000000) loaded = .next t) := ⟨⟨_, rfl⟩, ⟨_, rfl⟩⟩
theorem witness_RecordFollowsTheResponse : (∃ t, exec (.rdstat 0) loaded = .next t) ∧
    (∃ t, exec (.rdstat 2) loaded = .next t) ∧ (∃ t, exec .getled loaded = .next t) := ⟨⟨_, rfl⟩, ⟨_, rfl⟩, ⟨_, rfl⟩⟩

/-- The host's next command is GETLED, and an InvalidRawInput has been seen. -/
def seen : State := { loaded with status := 0x100, pending := [.present (.command 0x0700000000000000) []] }

theorem witness_OnlyResetClearsStickyBits : (∃ t, step seen = .next t) ∧ (∀ rest, seen.pending ≠ .reset :: rest) ∧
    seen.status.getLsbD 8 = true := ⟨⟨_, rfl⟩, by intro rest h; simp [seen] at h, by decide⟩
theorem witness_CausesAreTheCommands : ∃ t r, exec (.dpienc true 127) loaded = .next t ∧ t.resp = some r ∧ r.code ≠ 0 :=
  ⟨_, _, rfl, rfl, by decide⟩
/-- Each clause: a word that decodes, an opcode that is not assigned, a bit under MASK, an unknown mode. -/
theorem witness_StepRunsTheDecodedInstruction :
    (seen.pending = .present (.command 0x0700000000000000) [] :: [] ∧
      decode (.command 0x0700000000000000) = .ok .getled) ∧
    (({ seen with pending := [.present (.command 0x0D00000000000000) []] } : State).pending =
        .present (.command 0x0D00000000000000) [] :: [] ∧
      decode (.command 0x0D00000000000000) = .error (.unassignedOpcode 0x0D)) ∧
    (({ seen with pending := [.present (.command 0x0700000000000001) []] } : State).pending =
        .present (.command 0x0700000000000001) [] :: [] ∧
      decode (.command 0x0700000000000001) = .error .maskMismatch) ∧
    (({ seen with pending := [.present (.quad 0x24000012) []] } : State).pending = .present (.quad 0x24000012) [] :: [] ∧
      decode (.quad 0x24000012) = .error (.unknownLedMode 0x24)) :=
  ⟨⟨rfl, by decide⟩, ⟨rfl, by decide⟩, ⟨rfl, by decide⟩, rfl, by decide⟩
theorem witness_CommandsAreTakenInOrder :
    seen.pending = .present (.command 0x0700000000000000) [] :: [] ∧ ∃ t, step seen = .next t := ⟨rfl, _, rfl⟩
theorem witness_OnlyLoadSamplesWin : Instr.getled ≠ .load ∧ ∃ t, exec .getled loaded = .next t := ⟨nofun, _, rfl⟩
theorem witness_StepKeepsTheInvariant : Inv loaded ∧ ∃ t, step loaded = .next t := ⟨loaded_inv, _, rfl⟩
theorem witness_TheBlockNeverStops : Inv loaded := loaded_inv
theorem witness_CacheIsDecodeOfReport : Reachable State.reset ∧ Lockstep loaded ∧
    (∃ t, exec (.setact 4 false) loaded = .next t) ∧
    (∃ t, exec .load { loaded with win := sampleBytes } = .next t ∧ ∃ r, t.resp = some r ∧ r.code = 0) :=
  ⟨.reset, loaded_inv.lockstep, ⟨_, rfl⟩, ⟨_, image_loads, _, rfl, rfl⟩⟩

/-- A state a run reaches by LOAD of the test image. -/
theorem witness_ReportLoadsBack : ∃ s, Reachable s ∧ s.rpt = Memory.ofReport sampleReport ∧ s.cache = imageCache := by
  have h : loadCheck sampleBytes = .ok (sampleReport, imageCache) := by decide +kernel
  have e : step { State.reset with pending := [.present (.command 0x0200000000000000) sampleBytes] } =
      commit (({ State.reset with pending := [.present (.command 0x0200000000000000) sampleBytes] } : State).accept
        sampleBytes []) ((loadCheck sampleBytes).map fun bc =>
          (({ State.reset with pending := [.present (.command 0x0200000000000000) sampleBytes] } : State).accept
            sampleBytes []).construct bc.1 bc.2) := rfl
  rw [h] at e
  exact ⟨_, .step (.host _ .reset) e, rfl, rfl⟩

theorem witness_PseudoInstructionsExpand : 4 < 5 ∧ 255 < 256 := by decide
theorem witness_SetprofIsNotAtomic : ∃ s : State, (126 < 127 ∧ 127 < 256) ∧
    s.pending = (AsmCommand.setprof (4 : Fin 5).val true 127 0x123456).words.map (fun w => .present (.command w) []) :=
  ⟨{ loaded with pending := (AsmCommand.setprof 4 true 127 0x123456).words.map fun w => .present (.command w) [] },
    by decide, rfl⟩

end Sys2Proof.Tests
end

section
/-! PROOFS. `MemRead` after `MemWrite` (00_scope.md R11, 20_memory.md R41). -/

namespace Sys2Proof.Machine

/-- `MemRead` takes its bytes in rising order, each one less significant than those before it (R11). -/
theorem Memory.memRead_succ {m : Memory} {o n hi : Nat} {b : Byte} (front : m.memRead o n = some hi)
    (last : m.read (o + n) = some b) : m.memRead o (n + 1) = some (hi * 256 + b.toNat) := by
  simp only [Memory.memRead, front, last]

/-- Reading the first `k` of the `n` bytes written gives the value without its last `n - k` bytes. -/
theorem Memory.memRead_memWrite_prefix (m : Memory) (o n v k : Nat) (h : k ≤ n) :
    (m.memWrite o n v).memRead o k = some (v / 256 ^ (n - k) % 256 ^ k) := by
  induction k with
  | zero => simp [Memory.memRead, Nat.mod_one]
  | succ k ih =>
    have shift : v / 256 ^ (n - k) = v / 256 ^ (n - 1 - k) / 256 := by
      rw [Nat.div_div_eq_div_mul, ← Nat.pow_succ]
      congr 2
      omega
    have peel (w : Nat) : w % 256 ^ (k + 1) = w / 256 % 256 ^ k * 256 + w % 256 := by
      rw [Nat.pow_succ', Nat.mod_mul, Nat.add_comm, Nat.mul_comm]
    rw [Memory.memRead_succ (ih (by omega)) (Memory.read_memWrite_inside m o n v k h), shift, BitVec.toNat_ofNat,
      show n - (k + 1) = n - 1 - k by omega, peel]

/-- `MemRead` after `MemWrite` at the same place gives the value's low `n` bytes. -/
theorem Memory.memRead_memWrite (m : Memory) (o n v : Nat) :
    (m.memWrite o n v).memRead o n = some (v % 256 ^ n) := by
  simpa using Memory.memRead_memWrite_prefix m o n v n (Nat.le_refl n)

end Sys2Proof.Machine

namespace Sys2Proof.Proofs
open Sys2Proof.Machine

/-- Settles O30: each of the four clauses is a law of `MemWrite`, the first by induction on the bytes read back. -/
theorem memReadAfterMemWrite : Obligations.MemReadAfterMemWrite := by
  intro m o n v
  refine ⟨fun fits => ?_, fun pos => ?_, fun a outside => ?_, fun wf inside => ?_⟩
  · rw [Memory.memRead_memWrite, Nat.mod_eq_of_lt fits]
  · exact Memory.read_memWrite_inside m o n v 0 pos
  · exact Memory.read_memWrite_outside m o n v a outside
  · exact Memory.memWrite_wf m o n v wf inside

end Sys2Proof.Proofs
end

section
/-! PROOFS. The field codecs undo one another where C is decoded again: the DPI byte (41_field_codecs.md R90), the
affine codes (R94) and the LED bytes (42_led_effect_codec.md R114). -/

namespace Sys2Proof.Machine

/-- The byte `dpi_enc` makes decodes to the flag and the index it was made from (R90). -/
theorem dpiDec_dpiByte (a : Bool) (d : DpiIndex) (loc : Nat) : dpiDec (dpiByte a d) loc = .ok (a, d) := by
  have bits : bitsOf (dpiByte a d) 6 0 = d.val + 1 := by
    simp only [bitsOf, dpiByte, BitVec.extractLsb'_toNat, BitVec.toNat_ofNat]
    cases a <;> simp <;> omega
  have flag : (dpiByte a d).getLsbD 7 = !a := by
    rw [BitVec.getLsbD_eq_getElem (by decide), BitVec.getElem_eq_testBit_toNat, Nat.testBit_eq_decide_div_mod_eq]
    cases a <;> simp [dpiByte] <;> omega
  have index : (⟨bitsOf (dpiByte a d) 6 0 - 1, by omega⟩ : DpiIndex) = d := Fin.ext (by simp [bits])
  rw [dpiDec, dif_neg (by omega), index, flag, Bool.not_not]

theorem Family.step_pos (f : Family) : 0 < f.step := by cases f <;> decide

theorem Family.hasId_iff (f : Family) (id : Nat) : f.hasId id = true ↔ 1 ≤ id ∧ id ≤ f.count := by
  simp [Family.hasId]

/-- The code of an id of the family fits a byte, so narrowing it loses nothing (R92). -/
theorem Family.code_lt (f : Family) {id : Nat} (h : id ≤ f.count) : id * f.step + f.base < 256 := by
  have speed := Config.breatheSpeedAboveLeast.isLt
  have frequency := Config.frequencyAboveLeast.isLt
  have times := Config.timesAboveLeast.isLt
  have hold := Config.holdTimeAboveLeast.isLt
  cases f <;> simp only [Family.count, Family.step, Family.base, Config.nBreatheSpeed, Config.nFrequency,
    Config.nTimes, Config.nHoldTime] at h ⊢ <;> omega

theorem affCode_toNat (f : Family) {id : Nat} (h : id ≤ f.count) : (affCode f id).toNat = id * f.step + f.base := by
  rw [affCode, BitVec.toNat_ofNat, Nat.mod_eq_of_lt (f.code_lt h)]

/-- The quotient `aff_dec` takes of a code is the id it was made from (R93). -/
theorem affQuotient_affCode (f : Family) {id : Nat} (h : id ≤ f.count) : affQuotient f (affCode f id) = id := by
  rw [affQuotient, affCode_toNat f h, Nat.add_sub_cancel, Nat.mul_div_cancel _ f.step_pos]

theorem affOk_affCode (f : Family) {id : Nat} (h : f.hasId id = true) : affOk f (affCode f id) = true := by
  have le := ((f.hasId_iff id).mp h).2
  simp [affOk, affQuotient_affCode f le, h, affCode_toNat f le]

/-- `aff_dec` gives back the id `aff_enc` was given (R94). -/
theorem affDec_affCode (f : Family) (id : Byte) (h : f.hasId id.toNat = true) : affDec f (affCode f id.toNat) = id := by
  rw [affDec, affQuotient_affCode f ((f.hasId_iff _).mp h).2, BitVec.ofNat_toNat, BitVec.setWidth_eq]

/-- A mode byte of the table selects its own row (R108, R109). -/
theorem ledShape?_mode (sh : LedShape) : ledShape? sh.row.mode = some sh := by
  rcases sh with _ | _ | k | k
  · rfl
  · rfl
  · cases k <;> rfl
  · cases k <;> rfl

/-- A configuration is its shape with its three ids (R107, R109). -/
theorem LedConfig.build_shape (v : LedConfig) : v.shape.build v.id1 v.id2 v.id3 = v := by
  rcases v with _ | _ | ⟨_, _, e⟩ | ⟨_, e⟩
  · rfl
  · rfl
  · cases e <;> rfl
  · cases e <;> rfl

/-- One slot of `led_dec` undoes the same slot of `led_enc` (R110, R112). -/
theorem ledArg_ledArgCode (fam : Option Family) (slot : Nat) (id : Byte) (h : slotHasId fam id = true) :
    ledArg fam slot (ledArgCode fam id) = .ok id := by
  cases fam with
  | none =>
    have unused : id = 0 := by simpa [slotHasId] using h
    rw [unused]; rfl
  | some f => simp only [ledArg, ledArgCode, affOk_affCode f h, affDec_affCode f id h, if_true]

/-- `led_dec` after `led_enc` is the identity on representable configurations (R114). -/
theorem ledDec_ledEnc (v : LedConfig) (h : v.representable = true) : ledDec (ledEnc v) = .ok v := by
  simp only [LedConfig.representable, Bool.and_eq_true] at h
  obtain ⟨⟨slot1, slot2⟩, slot3⟩ := h
  have arg1 := ledArg_ledArgCode v.shape.row.fam1 1 v.id1 slot1
  have arg2 := ledArg_ledArgCode v.shape.row.fam2 2 v.id2 slot2
  have arg3 := ledArg_ledArgCode (some v.shape.row.fam3) 3 v.id3 slot3
  calc ledDec (ledEnc v)
      = ledDecAs v.shape (ledEnc v).arg1 (ledEnc v).arg2 (ledEnc v).arg3 := by
        rw [ledDec, show (ledEnc v).mode = v.shape.row.mode from rfl, ledShape?_mode]
    _ = .ok (v.shape.build v.id1 v.id2 v.id3) := by
        rw [ledDecAs, show (ledEnc v).arg1 = ledArgCode v.shape.row.fam1 v.id1 from rfl, arg1,
          show (ledEnc v).arg2 = ledArgCode v.shape.row.fam2 v.id2 from rfl, arg2,
          show (ledEnc v).arg3 = ledArgCode (some v.shape.row.fam3) v.id3 from rfl, arg3]
        rfl
    _ = .ok v := by rw [v.build_shape]

/-- A shape with an id of its family in every used slot and 0 in every unused one is representable (R107). -/
theorem LedShape.representable_build {sh : LedShape} {x1 x2 x3 : Byte} (slot1 : slotHasId sh.row.fam1 x1 = true)
    (slot2 : slotHasId sh.row.fam2 x2 = true) (slot3 : sh.row.fam3.hasId x3.toNat = true) :
    (sh.build x1 x2 x3).representable = true := by
  rcases sh with _ | _ | k | k
  · exact Bool.and_intro rfl slot3
  · exact Bool.and_intro rfl slot3
  · cases k <;> exact Bool.and_intro (Bool.and_intro slot1 slot2) slot3
  · cases k <;> exact Bool.and_intro (Bool.and_intro slot1 rfl) slot3

@[simp] theorem LedShape.blinkEffect_fam1 (k : EffectKind) : (LedShape.blinkEffect k).row.fam1 = some .frequency := by
  cases k <;> rfl
@[simp] theorem LedShape.blinkEffect_fam2 (k : EffectKind) : (LedShape.blinkEffect k).row.fam2 = some .times := by
  cases k <;> rfl
@[simp] theorem LedShape.steadyEffect_fam1 (k : EffectKind) : (LedShape.steadyEffect k).row.fam1 = some .holdTime := by
  cases k <;> rfl
@[simp] theorem LedShape.steadyEffect_fam2 (k : EffectKind) : (LedShape.steadyEffect k).row.fam2 = none := by
  cases k <;> rfl

theorem slotHasId_some {f : Family} {id : Byte} : slotHasId (some f) id = true ↔ 1 ≤ id.toNat ∧ id.toNat ≤ f.count :=
  f.hasId_iff id.toNat

theorem slotHasId_none {id : Byte} : slotHasId none id = true ↔ id.toNat = 0 := by
  simp [slotHasId, ← BitVec.toNat_inj]

/-- "P3 in range of K" of R113 says that P3 is an id of the effect's family, in both composite variants (R107). -/
theorem effectIdInRange_hasId {k : Nat} {p3 : Byte} (h : effectIdInRange k p3.toNat = true) :
    (LedShape.blinkEffect (effectKindOfCode k)).row.fam3.hasId p3.toNat = true ∧
    (LedShape.steadyEffect (effectKindOfCode k)).row.fam3.hasId p3.toNat = true := by
  match k with
  | 0 | 1 | 2 => exact ⟨h, h⟩
  | n + 3 => cases h

/-- The clause of R113 for a variant makes every leaf of the configuration an id of its family (R107). -/
theorem representable_of_variantFieldsOk {v k : Nat} {p1 p2 p3 : Byte}
    (h : variantFieldsOk v k p1.toNat p2.toNat p3.toNat = true) :
    ((shapeOfCodes v k).build p1 p2 p3).representable = true := by
  match v with
  | 0 | 1 =>
    simp only [variantFieldsOk, Bool.and_eq_true, beq_iff_eq, decide_eq_true_eq] at h
    obtain ⟨⟨⟨⟨-, unused1⟩, unused2⟩, least⟩, greatest⟩ := h
    exact LedShape.representable_build (slotHasId_none.mpr unused1) (slotHasId_none.mpr unused2)
      ((Family.hasId_iff _ _).mpr ⟨least, greatest⟩)
  | 2 =>
    simp only [variantFieldsOk, Bool.and_eq_true, decide_eq_true_eq] at h
    obtain ⟨⟨⟨⟨least1, greatest1⟩, least2⟩, greatest2⟩, effect⟩ := h
    apply LedShape.representable_build (sh := .blinkEffect (effectKindOfCode k))
    · rw [LedShape.blinkEffect_fam1]; exact slotHasId_some.mpr ⟨least1, greatest1⟩
    · rw [LedShape.blinkEffect_fam2]; exact slotHasId_some.mpr ⟨least2, greatest2⟩
    · exact (effectIdInRange_hasId effect).1
  | 3 =>
    simp only [variantFieldsOk, Bool.and_eq_true, beq_iff_eq, decide_eq_true_eq] at h
    obtain ⟨⟨⟨least1, greatest1⟩, unused2⟩, effect⟩ := h
    apply LedShape.representable_build (sh := .steadyEffect (effectKindOfCode k))
    · rw [LedShape.steadyEffect_fam1]; exact slotHasId_some.mpr ⟨least1, greatest1⟩
    · rw [LedShape.steadyEffect_fam2]; exact slotHasId_none.mpr unused2
    · exact (effectIdInRange_hasId effect).2
  | n + 4 => cases h

/-- A valid descriptor spells a representable configuration (R113). -/
theorem representable_ledOfDescriptor {d : Word} (h : descOk d = true) : (ledOfDescriptor d).representable = true := by
  simp only [descOk, Bool.and_eq_true] at h
  exact representable_of_variantFieldsOk h.2

end Sys2Proof.Machine
end

section
/-! PROOFS. Lockstep read off the report bytes: the cache is the decode of RPT exactly when every profile's DPI and
colour bytes and the four LED bytes spell it (10_state.md R29, 43_configuration_model.md R123, R133). Each write of a
command meets the fields it does not touch by the frame of `MemWrite`. -/

namespace Sys2Proof.Machine

/-! ### Fields of a stored report -/

/-- `MemRead` of bytes a `MemWrite` does not reach gives what it gave before (R11). -/
theorem Memory.memRead_memWrite_apart (m : Memory) (o n v a k : Nat) (h : a + k ≤ o ∨ o + n ≤ a) :
    (m.memWrite o n v).memRead a k = m.memRead a k := by
  induction k with
  | zero => rfl
  | succ k ih => simp only [Memory.memRead, ih (by omega), Memory.read_memWrite_outside m o n v (a + k) (by omega)]

theorem Memory.memRead_one {m : Memory} {o : Nat} {b : Byte} (h : m.read o = some b) : m.memRead o 1 = some b.toNat := by
  simpa using Memory.memRead_succ (hi := 0) rfl h

/-- The DPI byte of a profile as RPT holds it (R19). -/
theorem memRead_dpi_ofReport (B : Report) (i : Fin 5) :
    (Memory.ofReport B).memRead (dpiOffset i) 1 =
      some (B[dpiOffset i]'(by simp only [dpiOffset, reportSize]; omega)).toNat :=
  Memory.memRead_one (Memory.read_ofReport B _ _)

/-- A byte put below a word: the word moves up by eight bits (R9). -/
theorem toNat_append_byte {n : Nat} (a : BitVec n) (b : Byte) : (a ++ b).toNat = a.toNat * 256 + b.toNat := by
  rw [BitVec.toNat_append, ← Nat.shiftLeft_add_eq_or_of_lt b.isLt, Nat.shiftLeft_eq]

/-- The colour of a profile as RPT holds it, its first byte most significant (R24, R41). -/
theorem memRead_rgb_ofReport (B : Report) (i : Fin 5) :
    (Memory.ofReport B).memRead (rgbOffset i) 3 = some (rgbOf B i).toNat := by
  have byte (k : Nat) (h : k < 3) := Memory.read_ofReport B (rgbOffset i + k) (by simp only [rgbOffset, reportSize]; omega)
  rw [rgbOf, toNat_append_byte, toNat_append_byte]
  exact Memory.memRead_succ (Memory.memRead_succ (Memory.memRead_one (byte 0 (by omega))) (byte 1 (by omega)))
    (byte 2 (by omega))

theorem LedQuad.word_toNat (q : LedQuad) :
    q.word.toNat = ((q.mode.toNat * 256 + q.arg1.toNat) * 256 + q.arg2.toNat) * 256 + q.arg3.toNat := by
  simp only [LedQuad.word, wordOfBytes, toNat_append_byte]

theorem memRead_led_ofReport (B : Report) : (Memory.ofReport B).memRead 93 4 = some (quadOf B).word.toNat := by
  have byte (o : Nat) (h : o < reportSize) := Memory.read_ofReport B o h
  rw [LedQuad.word_toNat]
  exact Memory.memRead_succ (Memory.memRead_succ (Memory.memRead_succ (Memory.memRead_one (byte 93 (by decide)))
    (byte 94 (by decide))) (byte 95 (by decide))) (byte 96 (by decide))

/-! ### The decode of a report, field by field -/

/-- `decodeAll` succeeds with exactly the cache whose every field is the decode of its own bytes (R123). -/
theorem decodeAll_eq_ok_iff (B : Report) (c : Cache) :
    decodeAll B = .ok c ↔
      (∀ i : Fin 5, dpiOf B i = .ok (c.prof[i].active, c.prof[i].dpi)) ∧ (∀ i : Fin 5, c.prof[i].rgb = rgbOf B i) ∧
      ledDec (quadOf B) = .ok c.led := by
  constructor
  · intro h
    obtain ⟨d0, h0, h⟩ := bind_ok h
    obtain ⟨d1, h1, h⟩ := bind_ok h
    obtain ⟨d2, h2, h⟩ := bind_ok h
    obtain ⟨d3, h3, h⟩ := bind_ok h
    obtain ⟨d4, h4, h⟩ := bind_ok h
    obtain ⟨v, hv, h⟩ := bind_ok h
    cases h
    refine ⟨fun i => ?_, fun i => ?_, hv⟩
    · match i with
      | 0 => exact h0
      | 1 => exact h1
      | 2 => exact h2
      | 3 => exact h3
      | 4 => exact h4
    · match i with
      | 0 | 1 | 2 | 3 | 4 => rfl
  · rintro ⟨dpi, rgb, led⟩
    have slot (i : Fin 5) : profileOf B i (c.prof[i].active, c.prof[i].dpi) = c.prof[i] := by rw [profileOf, ← rgb i]
    have slots : #v[c.prof[(0 : Fin 5)], c.prof[(1 : Fin 5)], c.prof[(2 : Fin 5)], c.prof[(3 : Fin 5)],
        c.prof[(4 : Fin 5)]] = c.prof := by
      apply Vector.ext
      intro i hi
      match i with
      | 0 | 1 | 2 | 3 | 4 => rfl
    simp only [decodeAll, dpi, led, bind, Except.bind, slot, slots]
    rfl

/-- Memory holds the cache: the DPI byte and the colour of every profile and the four LED bytes are there and decode
to its fields (R19, R22, R24, R123). -/
structure Memory.Spells (m : Memory) (c : Cache) : Prop where
  dpi : ∀ i : Fin 5, ∃ raw : Byte, m.memRead (dpiOffset i) 1 = some raw.toNat ∧
    dpiDec raw (dpiOffset i) = .ok (c.prof[i].active, c.prof[i].dpi)
  rgb : ∀ i : Fin 5, m.memRead (rgbOffset i) 3 = some c.prof[i].rgb.toNat
  led : ∃ q : LedQuad, m.memRead 93 4 = some q.word.toNat ∧ ledDec q = .ok c.led

theorem quadOfWord_word (q : LedQuad) : quadOfWord q.word = q := by
  have mode : q.word.extractLsb' 24 8 = q.mode := quadOfBytes_mode _ _ _ _
  have arg1 : q.word.extractLsb' 16 8 = q.arg1 := quadOfBytes_arg1 _ _ _ _
  have arg2 : q.word.extractLsb' 8 8 = q.arg2 := quadOfBytes_arg2 _ _ _ _
  have arg3 : q.word.extractLsb' 0 8 = q.arg3 := quadOfBytes_arg3 _ _ _ _
  rw [quadOfWord, mode, arg1, arg2, arg3]

/-- A raw quad's word says which four bytes it is of (R62). -/
theorem LedQuad.word_injective {p q : LedQuad} (h : p.word = q.word) : p = q := by
  rw [← quadOfWord_word p, h, quadOfWord_word]

/-- A stored report spells a cache exactly when the cache is its decode (R123). -/
theorem spells_ofReport_iff (B : Report) (c : Cache) : (Memory.ofReport B).Spells c ↔ decodeAll B = .ok c := by
  rw [decodeAll_eq_ok_iff]
  constructor
  · rintro ⟨dpi, rgb, q, word, led⟩
    refine ⟨fun i => ?_, fun i => ?_, ?_⟩
    · obtain ⟨raw, read, dec⟩ := dpi i
      rw [memRead_dpi_ofReport, Option.some.injEq, BitVec.toNat_inj] at read
      rw [dpiOf, read, dec]
    · have read := rgb i
      rw [memRead_rgb_ofReport, Option.some.injEq, BitVec.toNat_inj] at read
      exact read.symm
    · rw [memRead_led_ofReport, Option.some.injEq, BitVec.toNat_inj] at word
      rw [LedQuad.word_injective word, led]
  · rintro ⟨dpi, rgb, led⟩
    exact ⟨fun i => ⟨_, memRead_dpi_ofReport B i, dpi i⟩, fun i => by rw [memRead_rgb_ofReport, rgb i],
      _, memRead_led_ofReport B, led⟩

theorem lockstep_of_decodeAll {s : State} {B : Report} (rpt : s.rpt = Memory.ofReport B)
    (dec : decodeAll B = .ok s.cache) : Lockstep s := by
  rw [Lockstep, rpt, Memory.toReport?_ofReport, Option.map_some, dec]

/-- Lockstep on a canonical memory: the bytes spell the cache (R29, R133). -/
theorem lockstep_iff_spells {s : State} (wf : s.rpt.wf = true) : Lockstep s ↔ s.rpt.Spells s.cache := by
  obtain ⟨B, rpt⟩ := (Memory.wf_iff_ofReport s.rpt).mp wf
  rw [Lockstep, rpt, Memory.toReport?_ofReport, Option.map_some, Option.some.injEq, spells_ofReport_iff]

/-! ### What each write leaves spelled -/

/-- A word of `n` bytes written is the word read back (R11, R41). -/
theorem Memory.memRead_memWrite_word (m : Memory) (o n : Nat) (v : BitVec (8 * n)) :
    (m.memWrite o n v.toNat).memRead o n = some v.toNat := by
  rw [Memory.memRead_memWrite, Nat.mod_eq_of_lt (by rw [show 256 = 2 ^ 8 from rfl, ← Nat.pow_mul]; exact v.isLt)]

/-- A byte that belongs to no field of the cache can be written freely: the count and the opaque bytes (R21, R25). -/
theorem Memory.Spells.memWrite_other {m : Memory} {c : Cache} (h : m.Spells c) (o n v : Nat)
    (apart : o + n ≤ 74 ∨ 79 ≤ o ∧ o + n ≤ 93 ∨ 97 ≤ o ∧ o + n ≤ 100 ∨ 115 ≤ o) : (m.memWrite o n v).Spells c where
  dpi j := by
    rw [Memory.memRead_memWrite_apart _ _ _ _ _ _ (by simp only [dpiOffset]; omega)]
    exact h.dpi j
  rgb j := by
    rw [Memory.memRead_memWrite_apart _ _ _ _ _ _ (by simp only [rgbOffset]; omega)]
    exact h.rgb j
  led := by
    rw [Memory.memRead_memWrite_apart _ _ _ _ _ _ (by omega)]
    exact h.led

/-- A profile slot and its DPI byte written together: the other fields, the profile's colour among them, stay (R126,
R127). -/
theorem Memory.Spells.writeProfileDpi {m : Memory} {c : Cache} (h : m.Spells c) (i : Fin 5) (p : Profile)
    (colour : p.rgb = c.prof[i].rgb) :
    (m.memWrite (dpiOffset i) 1 (dpiByte p.active p.dpi).toNat).Spells (c.withProfile i p) where
  dpi j := by
    by_cases e : i = j
    · subst e
      rw [Cache.withProfile_same]
      exact ⟨_, Memory.memRead_memWrite_word m (dpiOffset i) 1 _, dpiDec_dpiByte _ _ _⟩
    · rw [Cache.withProfile_other c i j p e, Memory.memRead_memWrite_apart _ _ _ _ _ _ (by simp only [dpiOffset]; omega)]
      exact h.dpi j
  rgb j := by
    rw [Memory.memRead_memWrite_apart _ _ _ _ _ _ (by simp only [dpiOffset, rgbOffset]; omega), h.rgb j]
    by_cases e : i = j
    · subst e
      rw [Cache.withProfile_same, colour]
    · rw [Cache.withProfile_other c i j p e]
  led := by
    rw [Memory.memRead_memWrite_apart _ _ _ _ _ _ (by simp only [dpiOffset]; omega)]
    exact h.led

/-- A profile slot and its colour bytes written together: the other fields, the profile's DPI byte among them, stay
(R128). -/
theorem Memory.Spells.writeProfileRgb {m : Memory} {c : Cache} (h : m.Spells c) (i : Fin 5) (p : Profile)
    (flag : p.active = c.prof[i].active) (index : p.dpi = c.prof[i].dpi) :
    (m.memWrite (rgbOffset i) 3 p.rgb.toNat).Spells (c.withProfile i p) where
  dpi j := by
    rw [Memory.memRead_memWrite_apart _ _ _ _ _ _ (by simp only [dpiOffset, rgbOffset]; omega)]
    by_cases e : i = j
    · subst e
      rw [Cache.withProfile_same, flag, index]
      exact h.dpi i
    · rw [Cache.withProfile_other c i j p e]
      exact h.dpi j
  rgb j := by
    by_cases e : i = j
    · subst e
      rw [Cache.withProfile_same]
      exact Memory.memRead_memWrite_word m (rgbOffset i) 3 _
    · rw [Cache.withProfile_other c i j p e, Memory.memRead_memWrite_apart _ _ _ _ _ _ (by simp only [rgbOffset]; omega)]
      exact h.rgb j
  led := by
    rw [Memory.memRead_memWrite_apart _ _ _ _ _ _ (by simp only [rgbOffset]; omega)]
    exact h.led

/-- The LED slot and its four bytes written together: the profiles stay (R129). -/
theorem Memory.Spells.writeLed {m : Memory} {c : Cache} (h : m.Spells c) (v : LedConfig) (ids : v.representable = true) :
    (m.memWrite 93 4 (ledEnc v).word.toNat).Spells { c with led := v } where
  dpi j := by
    rw [Memory.memRead_memWrite_apart _ _ _ _ _ _ (by simp only [dpiOffset]; omega)]
    exact h.dpi j
  rgb j := by
    rw [Memory.memRead_memWrite_apart _ _ _ _ _ _ (by simp only [rgbOffset]; omega)]
    exact h.rgb j
  led := ⟨ledEnc v, Memory.memRead_memWrite_word m 93 4 _, ledDec_ledEnc v ids⟩

/-! ### RPT in its form, and C its decode -/

/-- The part of the invariant that speaks of RPT and C (R18, R29, R38). -/
structure Synced (s : State) : Prop where
  report : s.rpt.wf = true
  spells : s.rpt.Spells s.cache

theorem Inv.synced {s : State} (h : Inv s) : Synced s := ⟨h.report, (lockstep_iff_spells h.report).mp h.lockstep⟩

theorem Synced.lockstep {s : State} (h : Synced s) : Lockstep s := (lockstep_iff_spells h.report).mpr h.spells

theorem synced_construct {B : Report} {c : Cache} (dec : decodeAll B = .ok c) (s : State) : Synced (s.construct B c) :=
  ⟨Memory.ofReport_wf B, (spells_ofReport_iff B c).mpr dec⟩

theorem Synced.writeProfileDpi {s : State} (h : Synced s) (i : Fin 5) (p : Profile)
    (colour : p.rgb = s.cache.prof[i].rgb) : Synced (s.writeProfileDpi i p) :=
  ⟨Memory.memWrite_wf _ _ _ _ h.report (by simp only [dpiOffset, reportSize]; omega), h.spells.writeProfileDpi i p colour⟩

theorem Synced.writeProfileRgb {s : State} (h : Synced s) (i : Fin 5) (p : Profile)
    (flag : p.active = s.cache.prof[i].active) (index : p.dpi = s.cache.prof[i].dpi) : Synced (s.writeProfileRgb i p) :=
  ⟨Memory.memWrite_wf _ _ _ _ h.report (by simp only [rgbOffset, reportSize]; omega),
    h.spells.writeProfileRgb i p flag index⟩

theorem Synced.writeLed {s : State} (h : Synced s) (v : LedConfig) (ids : v.representable = true) :
    Synced (s.writeLed v) :=
  ⟨Memory.memWrite_wf _ _ _ _ h.report (by decide), h.spells.writeLed v ids⟩

theorem Synced.recount {s : State} (h : Synced s) : Synced s.recount :=
  ⟨Memory.memWrite_wf _ _ _ _ h.report (by decide), h.spells.memWrite_other 71 1 _ (by omega)⟩

/-- The cache of DEFAULT_REPORT is its decode (R35, R121). -/
theorem AdmissibleReport.decodeAll_bytes (R : AdmissibleReport) : decodeAll R.bytes = .ok R.cache := by
  have value {ε α : Type} (r : Except ε α) (h : r.isOk = true) : r = .ok (okValue r h) := by
    cases r with
    | ok a => rfl
    | error e => cases h
  exact value _ R.decodes

theorem loadCheck_ok {L : List Byte} {B : Report} {c : Cache} (h : loadCheck L = .ok (B, c)) :
    reportOfBytes L = .ok B ∧ decodeAll B = .ok c := by
  obtain ⟨B', bytes, h⟩ := bind_ok h
  obtain ⟨c', dec, h⟩ := bind_ok h
  cases h
  exact ⟨bytes, dec⟩

/-- Every write of the block leaves RPT in its form and C its decode (R133). -/
theorem Writes.synced {s u : State} {i : Instr} (h : Writes s i u) (pre : Synced s) : Synced u := by
  cases h with
  | nothing => exact pre
  | loaddef => exact synced_construct Config.defaultReport.decodeAll_bytes s
  | load B c ok => exact synced_construct (loadCheck_ok ok).2 s
  | setdpi i d => exact pre.writeProfileDpi i _ rfl
  | setact i a => exact (pre.writeProfileDpi i { s.cache.prof[i] with active := a } rfl).recount
  | setrgb i rgb => exact pre.writeProfileRgb i _ rfl rfl
  | setled d ok => exact pre.writeLed _ (representable_ledOfDescriptor ok)

/-- Ending a command touches neither RPT nor C, so every instruction leaves them in step (R133). -/
theorem Ends.synced {s t : State} {i : Instr} (h : Ends s i t) (pre : Synced s) : Synced t := by
  cases h with
  | raised e => exact ⟨pre.report, pre.spells⟩
  | succeeded u d w wr =>
    have post := wr.synced pre
    exact ⟨post.report, post.spells⟩
  | statusRead reg d => exact ⟨pre.report, pre.spells⟩

end Sys2Proof.Machine
end

section
/-! PROOFS. Which exceptions an instruction raises: each check's own code and cause (60_exceptions.md R148), and from
them every instruction's (R149). -/

namespace Sys2Proof.Machine
open Sys2Proof.Claims

/-- Every exception of the result has one of these code and cause pairs (R147, R148). -/
def RaisesOnly {α : Type} (pairs : List (Nat × Nat)) (r : Except Exc α) : Prop :=
  ∀ e, r = .error e → (e.kind.code, e.cause.toNat) ∈ pairs

theorem RaisesOnly.ok {α : Type} {pairs : List (Nat × Nat)} (a : α) : RaisesOnly pairs (.ok a) := nofun

theorem RaisesOnly.error {α : Type} {pairs : List (Nat × Nat)} {e : Exc} (h : (e.kind.code, e.cause.toNat) ∈ pairs) :
    RaisesOnly pairs (.error e : Except Exc α) := fun _ eq => by cases eq; exact h

theorem RaisesOnly.map {α β : Type} {pairs : List (Nat × Nat)} {r : Except Exc α} (h : RaisesOnly pairs r) (f : α → β) :
    RaisesOnly pairs (r.map f) := by
  cases r with
  | ok a => exact .ok _
  | error e => exact .error (h e rfl)

theorem RaisesOnly.bind {α β : Type} {pairs : List (Nat × Nat)} {r : Except Exc α} {f : α → Except Exc β}
    (h : RaisesOnly pairs r) (hf : ∀ a, RaisesOnly pairs (f a)) : RaisesOnly pairs (r >>= f) := by
  cases r with
  | ok a => exact hf a
  | error e => exact .error (h e rfl)

theorem RaisesOnly.mono {α : Type} {pairs more : List (Nat × Nat)} {r : Except Exc α} (h : RaisesOnly pairs r)
    (sub : pairs ⊆ more) : RaisesOnly more r := fun e eq => sub (h e eq)

theorem RaisesOnly.ite {α : Type} {pairs : List (Nat × Nat)} {p : Prop} [Decidable p] {x y : Except Exc α}
    (hx : RaisesOnly pairs x) (hy : RaisesOnly pairs y) : RaisesOnly pairs (if p then x else y) := by
  split
  · exact hx
  · exact hy

/-! ### The checks -/

theorem profileSlot_raises (pid : Nat) : RaisesOnly [(2, 0x10)] (profileSlot pid) := by
  unfold profileSlot
  split
  · exact .ok _
  · exact .error (List.mem_singleton.mpr rfl)

theorem dpiIndex_raises (d : Nat) : RaisesOnly [(1, 0x05)] (dpiIndex d) := by
  unfold dpiIndex
  split
  · exact .ok _
  · exact .error (List.mem_singleton.mpr rfl)

theorem dpiDec_raises (r : Byte) (loc : Nat) : RaisesOnly [(1, 0x02)] (dpiDec r loc) := by
  unfold dpiDec
  split
  · exact .error (List.mem_singleton.mpr rfl)
  · exact .ok _

theorem familyOfSel_raises (sel : Nat) : RaisesOnly [(2, 0x10)] (familyOfSel sel) := by
  match sel with
  | 0 | 1 | 2 | 3 | 4 | 5 => exact .ok _
  | n + 6 => exact .error (List.mem_singleton.mpr rfl)

theorem affEnc_raises (f : Family) (id : Nat) : RaisesOnly [(2, 0x11)] (affEnc f id) :=
  .ite (.ok _) (.error (List.mem_singleton.mpr rfl))

theorem cntDec_raises (r : Byte) : RaisesOnly [(1, 0x07)] (cntDec r) :=
  .ite (.error (List.mem_singleton.mpr rfl)) (.ok _)

theorem ledOperand_raises (d : Word) : RaisesOnly [(2, 0x11)] (ledOperand d) :=
  .ite (.ok _) (.error (List.mem_singleton.mpr rfl))

theorem reportOffset_raises (o : Nat) : RaisesOnly [(2, 0x11)] (reportOffset o) :=
  .ite (.ok _) (.error (List.mem_singleton.mpr rfl))

theorem fieldPlace_raises (f : Nat) : RaisesOnly [(2, 0x10)] (fieldPlace f) :=
  .ite (.ok _) <| .ite (.ok _) <| .ite (.ok _) <| .ite (.ok _) <| .ite (.ok _) <| .ite (.ok _) <| .ite (.ok _) <|
    .ite (.ok _) (.error (List.mem_singleton.mpr rfl))

theorem ledArg_raises (fam : Option Family) (slot : Nat) (arg : Byte) : RaisesOnly [(1, 0x04)] (ledArg fam slot arg) := by
  cases fam with
  | none => exact .ok _
  | some f => exact .ite (.ok _) (.error (List.mem_singleton.mpr rfl))

theorem ledDecAs_raises (sh : LedShape) (a1 a2 a3 : Byte) : RaisesOnly [(1, 0x04)] (ledDecAs sh a1 a2 a3) :=
  (ledArg_raises _ _ _).bind fun _ => (ledArg_raises _ _ _).bind fun _ => (ledArg_raises _ _ _).bind fun _ => .ok _

theorem ledDec_raises (q : LedQuad) : RaisesOnly [(1, 0x03), (1, 0x04)] (ledDec q) := by
  unfold ledDec
  split
  · exact .error List.mem_cons_self
  · exact (ledDecAs_raises _ _ _ _).mono (List.subset_cons_self _ _)

theorem reportOfBytes_raises (L : List Byte) : RaisesOnly [(1, 0x01)] (reportOfBytes L) := by
  unfold reportOfBytes
  split
  · exact .ok _
  · exact .error (List.mem_singleton.mpr rfl)

theorem decodeAll_raises (B : Report) : RaisesOnly [(1, 0x02), (1, 0x03), (1, 0x04)] (decodeAll B) :=
  have dpi (i : Fin 5) : RaisesOnly [(1, 0x02), (1, 0x03), (1, 0x04)] (dpiOf B i) := (dpiDec_raises _ _).mono (by simp)
  (dpi 0).bind fun _ => (dpi 1).bind fun _ => (dpi 2).bind fun _ => (dpi 3).bind fun _ => (dpi 4).bind fun _ =>
    ((ledDec_raises _).mono (List.subset_cons_self _ _)).bind fun _ => .ok _

theorem loadCheck_raises (L : List Byte) : RaisesOnly [(1, 0x01), (1, 0x02), (1, 0x03), (1, 0x04)] (loadCheck L) :=
  ((reportOfBytes_raises L).mono (by simp)).bind fun B =>
    ((decodeAll_raises B).mono (List.subset_cons_self _ _)).bind fun _ => .ok _

/-! ### The instructions -/

theorem code_ne_zero (k : ExcKind) : BitVec.ofNat 8 k.code ≠ 0 := by cases k <;> decide

theorem code_injective {k k' : ExcKind} (h : BitVec.ofNat 8 k.code = BitVec.ofNat 8 k'.code) : k = k' := by
  revert h
  cases k <;> cases k' <;> decide

theorem infoOf_cause (e : Exc) : (infoOf e).extractLsb' 24 8 = e.cause :=
  BitVec.extractLsb'_append_eq_left

theorem infoOf_detail (e : Exc) : (infoOf e).extractLsb' 0 24 = e.detail :=
  BitVec.extractLsb'_append_eq_right

/-- What a raised exception leaves says which exception it was: RESP_CODE its kind, LAST_INFO its cause and detail
(R150, R151). -/
theorem State.raise_injective {s : State} {e e' : Exc} (h : s.raise e = s.raise e') : e = e' := by
  have resp := congrArg State.resp h
  have info : infoOf e = infoOf e' := congrArg State.lastInfo h
  simp only [State.raise_resp, Option.some.injEq, Response.mk.injEq, and_true] at resp
  have kind : e.kind = e'.kind := code_injective resp
  have cause : e.cause = e'.cause := by rw [← infoOf_cause, info, infoOf_cause]
  have detail : e.detail = e'.detail := by rw [← infoOf_detail, info, infoOf_detail]
  cases e
  cases e'
  simp_all

/-- No success leaves what an exception leaves: RESP_CODE tells them apart (R150). -/
theorem State.complete_ne_raise (u s : State) (d : Word) (w : List Byte) (e : Exc) : u.complete d w ≠ s.raise e := by
  intro h
  have resp := congrArg State.resp h
  simp only [State.complete_resp, State.raise_resp, Option.some.injEq, Response.mk.injEq] at resp
  exact code_ne_zero e.kind resp.1.symm

theorem State.completeKeepingRecord_ne_raise (s : State) (d : Word) (e : Exc) : s.completeKeepingRecord d ≠ s.raise e := by
  intro h
  have resp := congrArg State.resp h
  simp only [State.completeKeepingRecord_resp, State.raise_resp, Option.some.injEq, Response.mk.injEq] at resp
  exact code_ne_zero e.kind resp.1.symm

theorem answer_raises {s : State} {r : Except Exc Word} {pairs : List (Nat × Nat)} {e : Exc} (only : RaisesOnly pairs r)
    (h : answer s r = .next (s.raise e)) : (e.kind.code, e.cause.toNat) ∈ pairs := by
  obtain ⟨d, -, eq⟩ | ⟨e', raised, eq⟩ := answer_cases h
  · exact absurd eq.symm (State.complete_ne_raise s s d [] e)
  · rw [State.raise_injective eq]
    exact only e' raised

theorem commit_raises {s : State} {r : Except Exc State} {pairs : List (Nat × Nat)} {e : Exc} (only : RaisesOnly pairs r)
    (h : commit s r = .next (s.raise e)) : (e.kind.code, e.cause.toNat) ∈ pairs := by
  obtain ⟨u, -, eq⟩ | ⟨e', raised, eq⟩ := commit_cases h
  · exact absurd eq.symm (State.complete_ne_raise u s 0 [] e)
  · rw [State.raise_injective eq]
    exact only e' raised

theorem rdbyte_raises {s : State} {o : Nat} {e : Exc} (h : execRdbyte o s = .next (s.raise e)) :
    (e.kind.code, e.cause.toNat) ∈ allowedCauses (.rdbyte o) := by
  unfold execRdbyte at h
  split at h
  · rename_i bad
    exact answer_raises (.error (reportOffset_raises o _ bad)) h
  · obtain ⟨b, -, h⟩ := withReportData_cases h
    exact answer_raises (.ok _) h

theorem rdfld_raises {s : State} {f : Nat} {e : Exc} (h : execRdfld f s = .next (s.raise e)) :
    (e.kind.code, e.cause.toNat) ∈ allowedCauses (.rdfld f) := by
  unfold execRdfld at h
  split at h
  · rename_i bad
    exact answer_raises (.error (fieldPlace_raises f _ bad)) h
  · obtain ⟨v, -, h⟩ := withReportData_cases h
    exact answer_raises (.ok _) h

theorem rdraw_raises {s : State} {e : Exc} (h : execRdraw s = .next (s.raise e)) :
    (e.kind.code, e.cause.toNat) ∈ allowedCauses .rdraw := by
  obtain ⟨L, -, h⟩ := withReportData_cases h
  exact absurd (Host.Outcome.next.inj h) (State.complete_ne_raise _ _ _ _ _)

theorem rdstat_raises {s : State} {reg : Nat} {e : Exc} (h : execRdstat reg s = .next (s.raise e)) :
    (e.kind.code, e.cause.toNat) ∈ allowedCauses (.rdstat reg) := by
  unfold execRdstat at h
  split at h
  · exact absurd (Host.Outcome.next.inj h) (State.completeKeepingRecord_ne_raise _ _ _)
  · exact absurd (Host.Outcome.next.inj h) (State.completeKeepingRecord_ne_raise _ _ _)
  · rw [← State.raise_injective (Host.Outcome.next.inj h)]
    exact List.mem_singleton.mpr rfl

theorem setdpi_raises {s : State} {pid dpi : Nat} {e : Exc} (h : execSetdpi pid dpi s = .next (s.raise e)) :
    (e.kind.code, e.cause.toNat) ∈ allowedCauses (.setdpi pid dpi) :=
  commit_raises (((profileSlot_raises pid).mono (by simp [allowedCauses])).bind fun _ =>
    ((dpiIndex_raises dpi).mono (by simp [allowedCauses])).bind fun _ => .ok _) h

theorem affenc_raises {s : State} {family id : Nat} {e : Exc} (h : execAffenc family id s = .next (s.raise e)) :
    (e.kind.code, e.cause.toNat) ∈ allowedCauses (.affenc family id) :=
  answer_raises (((familyOfSel_raises family).mono (by simp [allowedCauses])).bind fun f =>
    ((affEnc_raises f id).mono (by simp [allowedCauses])).bind fun _ => .ok _) h

theorem affdec_raises {s : State} {family : Nat} {raw : Byte} {e : Exc}
    (h : execAffdec family raw s = .next (s.raise e)) :
    (e.kind.code, e.cause.toNat) ∈ allowedCauses (.affdec family raw) :=
  answer_raises (((familyOfSel_raises family).mono (by simp [allowedCauses])).bind fun _ =>
    .ite (.ok _) (.error List.mem_cons_self)) h

/-- An exception an instruction raises has a code and cause R149 gives that instruction. -/
theorem exec_raises {i : Instr} {s : State} {e : Exc} (h : exec i s = .next (s.raise e)) :
    (e.kind.code, e.cause.toNat) ∈ allowedCauses i := by
  cases i with
  | loaddef => exact commit_raises (.ok _) h
  | load => exact commit_raises ((loadCheck_raises _).map _) h
  | rdraw => exact rdraw_raises h
  | rdbyte o => exact rdbyte_raises h
  | rdfld f => exact rdfld_raises h
  | getprof pid => exact answer_raises ((profileSlot_raises pid).map _) h
  | getled => exact answer_raises (.ok _) h
  | setdpi pid dpi => exact setdpi_raises h
  | setact pid a => exact commit_raises ((profileSlot_raises pid).bind fun _ => .ok _) h
  | setrgb pid rgb => exact commit_raises ((profileSlot_raises pid).bind fun _ => .ok _) h
  | setled d => exact commit_raises ((ledOperand_raises d).bind fun _ => .ok _) h
  | rdstat reg => exact rdstat_raises h
  | dpienc a d => exact answer_raises (((dpiIndex_raises d).map _).map _) h
  | dpidec r => exact answer_raises ((dpiDec_raises r 0).map _) h
  | affenc f id => exact affenc_raises h
  | affdec f r => exact affdec_raises h
  | ledenc d => exact answer_raises ((ledOperand_raises d).map _) h
  | leddec q => exact answer_raises ((ledDec_raises _).map _) h
  | cntenc m => exact answer_raises (.ok _) h
  | cntdec r => exact answer_raises ((cntDec_raises r).map _) h
  | ledSteady a b c | ledBreathe a b c | ledBlinkResp a b c | ledBlinkGlow a b c | ledBlinkNeon a b c
  | ledHoldResp a b c | ledHoldGlow a b c | ledHoldNeon a b c =>
    exact answer_raises ((ledDecAs_raises _ a b c).map _) h

end Sys2Proof.Machine
end

section
/-! PROOFS. The error record and the response stay legal (10_state.md R31 to R33, 60_exceptions.md R148, R151). -/

namespace Sys2Proof.Machine
open Sys2Proof.Claims

/-! ### The record -/

theorem reservedBits_zero_iff (v : Word) : bitsOf v 31 11 = 0 ↔ ∀ b, 11 ≤ b → v.getLsbD b = false := by
  have whole : bitsOf v 31 11 = 0 ↔ v.extractLsb' 11 21 = 0#21 := BitVec.toNat_inj (y := 0#21)
  rw [whole, BitVec.eq_of_getLsbD_eq_iff]
  constructor
  · intro h b hb
    by_cases lt : b < 32
    · have bit := h (b - 11) (by omega)
      rw [BitVec.getLsbD_extractLsb', show 11 + (b - 11) = b by omega, decide_eq_true (by omega)] at bit
      simpa using bit
    · exact BitVec.getLsbD_of_ge v b (by omega)
  · intro h b _
    simp [h (11 + b) (by omega)]

/-- The legal records, clause by clause (R31, R32, R148, R151). -/
theorem recordOk_iff (status lastInfo : Word) :
    recordOk status lastInfo = true ↔
      (∀ b, 11 ≤ b → status.getLsbD b = false) ∧ bitsOf lastInfo 31 24 ∈ causesOf (lastCode status).toNat ∧
      (lastCode status = 0 → lastInfo = 0) ∧
      (lastCode status ≠ 0 → status.getLsbD (7 + (lastCode status).toNat) = true) := by
  rw [recordOk, Bool.and_eq_true, Bool.and_eq_true, beq_iff_eq, reservedBits_zero_iff, List.contains_iff_mem, and_assoc]
  by_cases clear : lastCode status = 0#8 <;> simp [clear]

/-- Success clears LAST_CODE and LAST_INFO and keeps the rest of STATUS, so the record stays legal (R151). -/
theorem recordOk_success {status lastInfo : Word} (h : recordOk status lastInfo = true) :
    recordOk (statusOnSuccess status) 0 = true := by
  obtain ⟨reserved, -, -, -⟩ := (recordOk_iff _ _).mp h
  refine (recordOk_iff _ _).mpr ⟨fun b hb => ?_, ?_, fun _ => rfl, fun ne => ?_⟩
  · rw [statusOnSuccess_high _ _ (by omega), reserved b hb]
  · rw [lastCode_statusOnSuccess]; decide
  · exact absurd (lastCode_statusOnSuccess status) ne

/-- A cause R148 gives the kind of the exception. -/
def Exc.Legal (e : Exc) : Prop := e.cause.toNat ∈ causesOf e.kind.code

/-- Raising writes the code with one of its causes and sets the kind's sticky bit, so the record stays legal (R151). -/
theorem recordOk_raise {status lastInfo : Word} {e : Exc} (h : recordOk status lastInfo = true) (legal : e.Legal) :
    recordOk (statusOnRaise status e.kind) (infoOf e) = true := by
  obtain ⟨reserved, -, -, -⟩ := (recordOk_iff _ _).mp h
  have code : (lastCode (statusOnRaise status e.kind)).toNat = e.kind.code := by
    rw [lastCode_statusOnRaise]; cases e.kind <;> rfl
  have sticky : stickyBit e.kind < 11 ∧ 8 ≤ stickyBit e.kind := by cases e.kind <;> decide
  refine (recordOk_iff _ _).mpr ⟨fun b hb => ?_, ?_, fun zero => ?_, fun _ => ?_⟩
  · rw [statusOnRaise_high _ _ _ (by omega), reserved b hb, Bool.false_or, decide_eq_false (by omega)]
  · rw [code, show bitsOf (infoOf e) 31 24 = ((infoOf e).extractLsb' 24 8).toNat from rfl, infoOf_cause]
    exact legal
  · rw [lastCode_statusOnRaise] at zero
    exact absurd zero (code_ne_zero e.kind)
  · rw [code, show 7 + e.kind.code = stickyBit e.kind from rfl, statusOnRaise_high _ _ _ sticky.2, decide_eq_true rfl,
      Bool.or_true]

theorem allowedCauses_legal (i : Instr) : ∀ p ∈ allowedCauses i, p.2 ∈ causesOf p.1 := by
  cases i <;> simp [allowedCauses, causesOf]

theorem exec_raises_legal {i : Instr} {s : State} {e : Exc} (h : exec i s = .next (s.raise e)) : e.Legal :=
  allowedCauses_legal i _ (exec_raises h)

theorem excOfDecodeError_legal (d : DecodeError) : (excOfDecodeError d).Legal := by
  cases d with
  | unassignedOpcode _ => exact (by decide : 0x20 ∈ [0x20, 0x21])
  | maskMismatch => exact (by decide : 0x21 ∈ [0x20, 0x21])
  | unknownLedMode _ => exact (by decide : 0x03 ∈ [0x01, 0x02, 0x03, 0x04, 0x05, 0x06, 0x07])

/-! ### The response -/

theorem responseOk_of_success (d : Word) {w : List Byte} (h : w = [] ∨ w.length = reportSize) :
    responseOk ⟨0, d, w⟩ = true := by
  rcases h with rfl | full
  · rfl
  · simp [responseOk, full]

theorem responseOk_of_raise (k : ExcKind) : responseOk ⟨BitVec.ofNat 8 k.code, 0, []⟩ = true := by
  cases k <;> rfl

theorem Memory.allBytes?_length {m : Memory} {L : List Byte} (h : m.allBytes? = some L) : L.length = reportSize := by
  unfold Memory.allBytes? at h
  split at h
  · rename_i wf
    cases h
    rw [List.length_map, Memory.wf_length m wf]
  · cases h

theorem answer_wout {s t : State} {r : Except Exc Word} {q : Response} (h : answer s r = .next t)
    (resp : t.resp = some q) : q.wout = [] := by
  obtain ⟨d, -, rfl⟩ | ⟨e, -, rfl⟩ := answer_cases h <;> cases resp <;> rfl

theorem commit_wout {s t : State} {r : Except Exc State} {q : Response} (h : commit s r = .next t)
    (resp : t.resp = some q) : q.wout = [] := by
  obtain ⟨u, -, rfl⟩ | ⟨e, -, rfl⟩ := commit_cases h <;> cases resp <;> rfl

theorem rdbyte_wout {s t : State} {o : Nat} {q : Response} (h : execRdbyte o s = .next t) (resp : t.resp = some q) :
    q.wout = [] := by
  unfold execRdbyte at h
  split at h
  · exact answer_wout h resp
  · obtain ⟨b, -, h⟩ := withReportData_cases h
    exact answer_wout h resp

theorem rdfld_wout {s t : State} {f : Nat} {q : Response} (h : execRdfld f s = .next t) (resp : t.resp = some q) :
    q.wout = [] := by
  unfold execRdfld at h
  split at h
  · exact answer_wout h resp
  · obtain ⟨v, -, h⟩ := withReportData_cases h
    exact answer_wout h resp

theorem rdstat_wout {s t : State} {reg : Nat} {q : Response} (h : execRdstat reg s = .next t) (resp : t.resp = some q) :
    q.wout = [] := by
  unfold execRdstat at h
  split at h <;> cases h <;> cases resp <;> rfl

/-- WOUT is empty after every instruction but RDRAW, which drives the bytes of RPT (R33, R79). -/
theorem exec_wout {i : Instr} {s t : State} {q : Response} (h : exec i s = .next t) (resp : t.resp = some q) :
    q.wout = [] ∨ i = .rdraw ∧ s.rpt.allBytes? = some q.wout := by
  cases i with
  | rdraw =>
    obtain ⟨L, bytes, h⟩ := withReportData_cases h
    cases h
    cases resp
    exact .inr ⟨rfl, bytes⟩
  | rdbyte o => exact .inl (rdbyte_wout h resp)
  | rdfld f => exact .inl (rdfld_wout h resp)
  | rdstat reg => exact .inl (rdstat_wout h resp)
  | loaddef | getled | cntenc _ => cases h; cases resp; exact .inl rfl
  | load | setdpi _ _ | setact _ _ | setrgb _ _ | setled _ => exact .inl (commit_wout h resp)
  | getprof _ | dpienc _ _ | dpidec _ | affenc _ _ | affdec _ _ | ledenc _ | leddec _ | cntdec _
  | ledSteady _ _ _ | ledBreathe _ _ _ | ledBlinkResp _ _ _ | ledBlinkGlow _ _ _ | ledBlinkNeon _ _ _
  | ledHoldResp _ _ _ | ledHoldGlow _ _ _ | ledHoldNeon _ _ _ => exact .inl (answer_wout h resp)

/-! ### The invariant -/

theorem Writes.status {s u : State} {i : Instr} (h : Writes s i u) : u.status = s.status := by
  cases h <;> rfl

/-- An exception with a cause of its kind keeps the invariant (R150, R151). -/
theorem Inv.raise {s : State} (h : Inv s) {e : Exc} (legal : e.Legal) : Inv (s.raise e) where
  report := h.report
  lockstep := h.lockstep
  record := recordOk_raise h.record legal
  response := by rintro _ ⟨⟩; exact responseOk_of_raise e.kind

/-- A success keeps the invariant when what it wrote left RPT and C in step and WOUT carries nothing or a whole report. -/
theorem Inv.complete {s u : State} (h : Inv s) (written : Synced u) (status : u.status = s.status) (d : Word)
    {w : List Byte} (wout : w = [] ∨ w.length = reportSize) : Inv (u.complete d w) where
  report := written.report
  lockstep := written.lockstep
  record := by rw [State.complete_status, status]; exact recordOk_success h.record
  response := by rintro _ ⟨⟩; exact responseOk_of_success d wout

theorem Inv.completeKeepingRecord {s : State} (h : Inv s) (d : Word) : Inv (s.completeKeepingRecord d) where
  report := h.report
  lockstep := h.lockstep
  record := h.record
  response := by rintro _ ⟨⟩; exact responseOk_of_success d (.inl rfl)

theorem Inv.accept {s : State} (h : Inv s) (win : List Byte) (rest : List Input) : Inv (s.accept win rest) where
  report := h.report
  lockstep := h.lockstep
  record := h.record
  response := h.response

/-- Every instruction keeps the invariant, however it ends. -/
theorem exec_inv {i : Instr} {s t : State} (pre : Inv s) (h : exec i s = .next t) : Inv t := by
  cases exec_ends h with
  | raised e => exact pre.raise (exec_raises_legal h)
  | succeeded u d w wr =>
    have wout : w = [] ∨ w.length = reportSize :=
      (exec_wout h rfl).imp_right fun bytes => Memory.allBytes?_length bytes.2
    exact pre.complete (wr.synced pre.synced) wr.status d wout
  | statusRead reg d => exact pre.completeKeepingRecord d

theorem reset_inv : Inv State.reset where
  report := Memory.ofReport_wf _
  lockstep := Synced.lockstep (synced_construct Config.defaultReport.decodeAll_bytes State.reset)
  record := by decide
  response := nofun

end Sys2Proof.Machine

namespace Sys2Proof.Proofs
open Sys2Proof.Machine

/-- Settles O51: DEFAULT_REPORT is stored whole with its decode, and the record is 0. -/
theorem resetMeetsTheInvariant : Obligations.ResetMeetsTheInvariant := reset_inv

/-- Settles O52, by the cases of a step. -/
theorem stepKeepsTheInvariant : Obligations.StepKeepsTheInvariant := by
  intro s t pre h
  obtain ⟨-, rfl⟩ | ⟨rest, -, rfl⟩ | ⟨p, win, rest, i, -, -, run⟩ | ⟨p, win, rest, e, -, -, rfl⟩ := step_cases h
  · exact pre
  · exact ⟨reset_inv.report, reset_inv.lockstep, reset_inv.record, reset_inv.response⟩
  · exact exec_inv (pre.accept win rest) run
  · exact (pre.accept win rest).raise (excOfDecodeError_legal e)

end Sys2Proof.Proofs
end

section
/-! PROOFS. The ports, the opaque bytes and reset: what each command leaves of the host's side (10_state.md R16, R33,
R34), what it leaves of the bytes outside its fields (R25), and what reset leaves (R35, 70_reset_and_hazards.md R167). -/

namespace Sys2Proof.Machine
open Sys2Proof.Claims

/-! ### The host's side -/

theorem Writes.samePorts {s u : State} {i : Instr} (h : Writes s i u) : SamePorts s u := by
  cases h <;> exact ⟨rfl, rfl, rfl⟩

/-- An instruction moves nothing on the host's side, and it always answers (R33, R150). -/
theorem Ends.samePorts {s t : State} {i : Instr} (h : Ends s i t) : SamePorts s t ∧ t.resp.isSome = true := by
  cases h with
  | raised e => exact ⟨⟨rfl, rfl, rfl⟩, rfl⟩
  | succeeded u d w wr =>
    obtain ⟨pending, win, issued⟩ := wr.samePorts
    exact ⟨⟨pending, win, issued⟩, rfl⟩
  | statusRead reg d => exact ⟨⟨rfl, rfl, rfl⟩, rfl⟩

/-! ### WIN -/

theorem answer_win {s t : State} {r : Except Exc Word} (L : List Byte) (h : answer s r = .next t) :
    answer { s with win := L } r = .next { t with win := L } := by
  obtain ⟨d, rfl, rfl⟩ | ⟨e, rfl, rfl⟩ := answer_cases h <;> rfl

theorem commit_win {s t : State} {r : Except Exc State} (L : List Byte) (h : commit s r = .next t) :
    commit { s with win := L } (r.map fun u => { u with win := L }) = .next { t with win := L } := by
  obtain ⟨u, rfl, rfl⟩ | ⟨e, rfl, rfl⟩ := commit_cases h <;> rfl

theorem setdpi_win {s t : State} {pid dpi : Nat} (L : List Byte) (h : execSetdpi pid dpi s = .next t) :
    execSetdpi pid dpi { s with win := L } = .next { t with win := L } := by
  rw [← commit_win L h, execSetdpi]
  cases profileSlot pid with
  | ok i => cases dpiIndex dpi <;> rfl
  | error e => rfl

theorem setact_win {s t : State} {pid : Nat} {a : Bool} (L : List Byte) (h : execSetact pid a s = .next t) :
    execSetact pid a { s with win := L } = .next { t with win := L } := by
  rw [← commit_win L h, execSetact]
  cases profileSlot pid <;> rfl

theorem setrgb_win {s t : State} {pid : Nat} {rgb : Word24} (L : List Byte) (h : execSetrgb pid rgb s = .next t) :
    execSetrgb pid rgb { s with win := L } = .next { t with win := L } := by
  rw [← commit_win L h, execSetrgb]
  cases profileSlot pid <;> rfl

theorem setled_win {s t : State} {d : Word} (L : List Byte) (h : execSetled d s = .next t) :
    execSetled d { s with win := L } = .next { t with win := L } := by
  rw [← commit_win L h, execSetled]
  cases ledOperand d <;> rfl

theorem rdraw_win {s t : State} (L : List Byte) (h : execRdraw s = .next t) :
    execRdraw { s with win := L } = .next { t with win := L } := by
  obtain ⟨bytes, all, h⟩ := withReportData_cases h
  cases h
  simp only [execRdraw, all, withReportData]
  rfl

theorem rdbyte_win {s t : State} {o : Nat} (L : List Byte) (h : execRdbyte o s = .next t) :
    execRdbyte o { s with win := L } = .next { t with win := L } := by
  unfold execRdbyte at h ⊢
  cases place : reportOffset o with
  | error e => rw [place] at h; exact answer_win L h
  | ok a =>
    rw [place] at h
    obtain ⟨b, read, h⟩ := withReportData_cases h
    simp only [read, withReportData]
    exact answer_win L h

theorem rdfld_win {s t : State} {f : Nat} (L : List Byte) (h : execRdfld f s = .next t) :
    execRdfld f { s with win := L } = .next { t with win := L } := by
  unfold execRdfld at h ⊢
  cases place : fieldPlace f with
  | error e => rw [place] at h; exact answer_win L h
  | ok a =>
    rw [place] at h
    obtain ⟨v, read, h⟩ := withReportData_cases h
    simp only [read, withReportData]
    exact answer_win L h

theorem rdstat_win {s t : State} {reg : Nat} (L : List Byte) (h : execRdstat reg s = .next t) :
    execRdstat reg { s with win := L } = .next { t with win := L } := by
  match reg with
  | 0 | 1 | n + 2 => cases h; rfl

/-! ### The opaque bytes -/

/-- The offsets the mutators write (R131) are not opaque, and none is that of report_rate (R20, R25). -/
theorem opaque_apart {o : Nat} (h : o ∈ opaqueOffsets ∨ o = 8) :
    o ≠ 71 ∧ (o < 74 ∨ 79 ≤ o) ∧ (o < 93 ∨ 97 ≤ o) ∧ (o < 100 ∨ 115 ≤ o) := by
  simp only [opaqueOffsets, List.mem_append, List.mem_range'_1, List.mem_cons, List.not_mem_nil, or_false] at h
  omega

/-- The four mutators leave the opaque bytes and report_rate alone, as does what writes nothing (R25, R131). -/
theorem Writes.opaque_kept {s u : State} {i : Instr} (h : Writes s i u) (noLoad : i ≠ .load) (noLoaddef : i ≠ .loaddef)
    {o : Nat} (ho : o ∈ opaqueOffsets ∨ o = 8) : u.rpt.read o = s.rpt.read o := by
  obtain ⟨count, dpi, led, rgb⟩ := opaque_apart ho
  cases h with
  | nothing => rfl
  | loaddef => exact absurd rfl noLoaddef
  | load => exact absurd rfl noLoad
  | setdpi i d => exact Memory.read_memWrite_outside _ _ _ _ _ (by simp only [dpiOffset]; omega)
  | setact i a =>
    rw [State.recount_rpt, Memory.read_memWrite_outside _ _ _ _ _ (by omega)]
    exact Memory.read_memWrite_outside _ _ _ _ _ (by simp only [dpiOffset]; omega)
  | setrgb i c => exact Memory.read_memWrite_outside _ _ _ _ _ (by simp only [rgbOffset]; omega)
  | setled d => exact Memory.read_memWrite_outside _ _ _ _ _ (by omega)

end Sys2Proof.Machine

namespace Sys2Proof.Proofs
open Sys2Proof.Machine Sys2Proof.Claims

/-- Settles O13: the reset state holds DEFAULT_REPORT with its decode, and an asserted reset is that state with what the
host does next. -/
theorem resetValues : Obligations.ResetValues := by
  have bytes (o : Nat) (h : o < 154) : State.reset.rpt.read o = some Config.defaultReport.bytes[o] :=
    Memory.read_ofReport _ o h
  have cache : decodeAll Config.defaultReport.bytes = .ok State.reset.cache := Config.defaultReport.decodeAll_bytes
  refine ⟨bytes, cache, rfl, rfl, rfl, fun s rest pending =>
    ⟨State.assertReset rest, ?_, bytes, cache, rfl, rfl, rfl, rfl, rfl⟩⟩
  rw [step, pending]

/-- Settles O48, by the two outcomes of the decoder. -/
theorem stepRunsTheDecodedInstruction : Obligations.StepRunsTheDecodedInstruction := by
  intro s p win rest pending
  have run : step s = runPresented p (s.accept win rest) := by rw [step, pending]
  refine ⟨run, fun i dec => ?_, fun e dec => ⟨?_, ?_, ?_, ?_⟩⟩
  · rw [run, runPresented, dec]
    rfl
  · rw [run, runPresented, dec]
    rfl
  · rintro opc rfl
    rfl
  · rintro rfl
    rfl
  · rintro mode rfl
    rfl

/-- Settles O49: the step accepts the word, and what then runs or raises leaves the host's side where that put it. -/
theorem commandsAreTakenInOrder : Obligations.CommandsAreTakenInOrder := by
  intro s t p win rest pending h
  obtain ⟨idle, -⟩ | ⟨_, reset, -⟩ | ⟨_, _, _, i, present, -, run⟩ | ⟨_, _, _, e, present, -, rfl⟩ := step_cases h
  · rw [pending] at idle
    cases idle
  · rw [pending] at reset
    cases reset
  · rw [pending] at present
    cases present
    obtain ⟨⟨next, offered, number⟩, answered⟩ := (exec_ends run).samePorts
    exact ⟨next, offered, number, answered⟩
  · rw [pending] at present
    cases present
    exact ⟨rfl, rfl, rfl, rfl⟩

/-- Settles O26: the opaque offsets are counted, and an instruction ends on what it wrote. -/
theorem onlyLoadsWriteOpaqueBytes : Obligations.OnlyLoadsWriteOpaqueBytes := by
  refine ⟨by simp [opaqueOffsets], fun i s t o noLoad noLoaddef h ho => ?_⟩
  cases exec_ends h with
  | raised e => rfl
  | succeeded u d w wr => exact wr.opaque_kept noLoad noLoaddef ho
  | statusRead reg d => rfl

/-- Settles O50, instruction by instruction: the ends `answer` and `commit` pass WIN through, and only LOAD's check
takes it as an operand. -/
theorem onlyLoadSamplesWin : Obligations.OnlyLoadSamplesWin := by
  intro i s t L noLoad h
  cases i with
  | load => exact absurd rfl noLoad
  | rdraw => exact rdraw_win L h
  | rdbyte o => exact rdbyte_win L h
  | rdfld f => exact rdfld_win L h
  | rdstat reg => exact rdstat_win L h
  | setdpi pid dpi => exact setdpi_win L h
  | setact pid a => exact setact_win L h
  | setrgb pid rgb => exact setrgb_win L h
  | setled d => exact setled_win L h
  | loaddef | getled | cntenc _ => cases h; rfl
  | getprof _ | dpienc _ _ | dpidec _ | affenc _ _ | affdec _ _ | ledenc _ | leddec _ | cntdec _
  | ledSteady _ _ _ | ledBreathe _ _ _ | ledBlinkResp _ _ _ | ledBlinkGlow _ _ _ | ledBlinkNeon _ _ _
  | ledHoldResp _ _ _ | ledHoldGlow _ _ _ | ledHoldNeon _ _ _ => exact answer_win L h

end Sys2Proof.Proofs
end

section
/-! PROOFS. Reading the configuration (10_state.md R39, R47): an instruction that writes nothing keeps RPT and C, and the
answer of a reader is a function of RPT and C. -/

namespace Sys2Proof.Machine
open Sys2Proof.Claims

/-! ### What does not write keeps RPT and C -/

theorem Writes.eq_of_reads {s u : State} {i : Instr} (h : Writes s i u) (reads : writesReport i = false) : u = s := by
  cases h with
  | nothing => rfl
  | loaddef | load | setdpi | setact | setrgb | setled => cases reads

theorem Ends.keepsReport {s t : State} {i : Instr} (h : Ends s i t) (reads : writesReport i = false) :
    KeepsReport s t := by
  cases h with
  | raised e => exact ⟨fun _ => rfl, rfl, rfl⟩
  | succeeded u d w wr => rw [wr.eq_of_reads reads]; exact ⟨fun _ => rfl, rfl, rfl⟩
  | statusRead reg d => exact ⟨fun _ => rfl, rfl, rfl⟩

/-- RESP_CODE 0 comes with a cleared LAST_CODE and LAST_INFO, RDSTAT excepted (R151). -/
theorem Ends.clearRecord {s t : State} {i : Instr} {r : Response} (h : Ends s i t) (other : ∀ reg, i ≠ .rdstat reg)
    (resp : t.resp = some r) (success : r.code = 0) : lastCode t.status = 0 ∧ t.lastInfo = 0 := by
  cases h with
  | raised e => cases resp; exact absurd success (code_ne_zero e.kind)
  | succeeded u d w => exact ⟨lastCode_statusOnSuccess u.status, rfl⟩
  | statusRead reg d isRdstat => exact absurd isRdstat (other reg)

/-- A reader neither writes RPT and C nor is RDSTAT (R39, R47). -/
theorem reads_of_isReader {i : Instr} (reader : isReader i = true) :
    writesReport i = false ∧ ∀ reg, i ≠ .rdstat reg := by
  cases i with
  | rdraw | rdbyte | rdfld | getprof | getled => exact ⟨rfl, nofun⟩
  | _ => cases reader

/-! ### The answer of a reader -/

/-- The outcome is a next state that carries this response. -/
def Responds (out : Result) (resp : Option Response) : Prop := ∃ u, out = .next u ∧ u.resp = resp

theorem answer_responds {s t : State} {r : Except Exc Word} (s' : State) (h : answer s r = .next t) :
    Responds (answer s' r) t.resp := by
  obtain ⟨d, rfl, rfl⟩ | ⟨e, rfl, rfl⟩ := answer_cases h
  · exact ⟨s'.complete d [], rfl, rfl⟩
  · exact ⟨s'.raise e, rfl, rfl⟩

theorem rdraw_responds {s s' t : State} (same : s'.rpt = s.rpt) (h : execRdraw s = .next t) :
    Responds (execRdraw s') t.resp := by
  obtain ⟨bytes, all, h⟩ := withReportData_cases h
  cases h
  exact ⟨s'.complete 0 bytes, by rw [execRdraw, same, all, withReportData], rfl⟩

theorem rdbyte_responds {s s' t : State} {o : Nat} (same : s'.rpt = s.rpt) (h : execRdbyte o s = .next t) :
    Responds (execRdbyte o s') t.resp := by
  unfold execRdbyte at h ⊢
  cases place : reportOffset o with
  | error e => rw [place] at h; exact answer_responds s' h
  | ok a =>
    rw [place] at h
    obtain ⟨b, read, h⟩ := withReportData_cases h
    simp only [same, read, withReportData]
    exact answer_responds s' h

theorem rdfld_responds {s s' t : State} {f : Nat} (same : s'.rpt = s.rpt) (h : execRdfld f s = .next t) :
    Responds (execRdfld f s') t.resp := by
  unfold execRdfld at h ⊢
  cases place : fieldPlace f with
  | error e => rw [place] at h; exact answer_responds s' h
  | ok a =>
    rw [place] at h
    obtain ⟨v, read, h⟩ := withReportData_cases h
    simp only [same, read, withReportData]
    exact answer_responds s' h

theorem getprof_responds {s s' t : State} {pid : Nat} (same : s'.cache = s.cache) (h : execGetprof pid s = .next t) :
    Responds (execGetprof pid s') t.resp := by
  rw [execGetprof, same]
  exact answer_responds s' h

theorem getled_responds {s s' t : State} (same : s'.cache = s.cache) (h : execGetled s = .next t) :
    Responds (execGetled s') t.resp := by
  rw [execGetled, same]
  exact answer_responds s' h

/-- A reader answers the same in any two states with the same RPT and C (R47). -/
theorem reader_responds {i : Instr} {s s' t : State} (reader : isReader i = true) (same : KeepsReport s s')
    (h : exec i s = .next t) : Responds (exec i s') t.resp := by
  cases i with
  | rdraw => exact rdraw_responds same.cells h
  | rdbyte o => exact rdbyte_responds same.cells h
  | rdfld f => exact rdfld_responds same.cells h
  | getprof pid => exact getprof_responds same.cache h
  | getled => exact getled_responds same.cache h
  | _ => cases reader

end Sys2Proof.Machine

namespace Sys2Proof.Proofs
open Sys2Proof.Machine Sys2Proof.Claims

/-- Settles O20: a reader keeps RPT and C, so its repetition reads what it read and answers the same. -/
theorem readersAreIdempotent : Obligations.ReadersAreIdempotent := by
  intro i s t reader h
  obtain ⟨reads, other⟩ := reads_of_isReader reader
  have kept : KeepsReport s t := (exec_ends h).keepsReport reads
  exact ⟨kept, reader_responds reader kept h, fun _ resp success => (exec_ends h).clearRecord other resp success⟩

end Sys2Proof.Proofs
end

section
/-! PROOFS. The command word and the operand table (30_encoding.md R53 to R59): a word is its four fields, MASK is a
condition on each field, and the operand fields of a row hold all that its MASK leaves free. -/

namespace Sys2Proof

/-! ### A command word and its four fields -/

/-- A command word is OPC, SEL, RSV and DATA, in that order (R53). -/
theorem cmdWord_eq_iff (w : CmdWord) (opc sel : Byte) (rsv : BitVec 16) (data : Word) :
    w = opc ++ sel ++ rsv ++ data ↔
      w.extractLsb' 56 8 = opc ∧ w.extractLsb' 48 8 = sel ∧ w.extractLsb' 32 16 = rsv ∧ w.extractLsb' 0 32 = data := by
  constructor
  · rintro rfl
    refine ⟨?_, ?_, ?_, ?_⟩ <;> (repeat (rw [BitVec.extractLsb'_append_eq_ite]; simp))
  · rintro ⟨rfl, rfl, rfl, rfl⟩
    have upper := BitVec.extractLsb'_append_extractLsb'_eq_extractLsb' (x := w) (show 56 = 48 + 8 from rfl) (len₂ := 8)
    have front := BitVec.extractLsb'_append_extractLsb'_eq_extractLsb' (x := w) (show 48 = 32 + 16 from rfl) (len₂ := 16)
    have whole := BitVec.extractLsb'_append_extractLsb'_eq_extractLsb' (x := w) (show 32 = 0 + 32 from rfl) (len₂ := 32)
    rw [upper, front, whole, BitVec.extractLsb'_eq_self]

theorem selField_eq_zero_iff (w : CmdWord) : selField w = 0 ↔ w.extractLsb' 48 8 = 0 :=
  BitVec.toNat_inj (x := w.extractLsb' 48 8) (y := 0)

theorem rsv_packCommand (opc : Byte) (sel : Nat) (data : Word) : (packCommand opc sel data).extractLsb' 32 16 = 0 := by
  obtain ⟨-, -, rsv, -⟩ := (cmdWord_eq_iff (packCommand opc sel data) _ _ _ _).mp rfl
  exact rsv

/-- A word whose RSV is 0 is packed from its other three fields (R53, R56). -/
theorem packCommand_fields {w : CmdWord} (rsv : w.extractLsb' 32 16 = 0) :
    packCommand (opcField w) (selField w) (dataField w) = w := by
  have sel : BitVec.ofNat 8 (selField w) = w.extractLsb' 48 8 := by
    rw [selField, bitsOf, BitVec.ofNat_toNat, BitVec.setWidth_eq]
  exact ((cmdWord_eq_iff w _ _ _ _).mpr ⟨rfl, sel.symm, rsv, rfl⟩).symm

/-! ### MASK, field by field -/

/-- MASK leaves SEL free (R55, R59). -/
def CommandRow.usesSelector (row : CommandRow) : Bool := row.mask.extractLsb' 48 8 == 0

/-- How many bits of DATA MASK leaves free (R59). -/
def CommandRow.dataWidth (row : CommandRow) : Nat := popcount (~~~dataField row.mask)

/-- The MASK of a row whose DATA operand is the low `n` bits: OPC, an unused SEL, RSV and the upper bits of DATA. -/
def fieldMask (usesSel : Bool) (n : Nat) : CmdWord :=
  BitVec.allOnes 8 ++ (if usesSel then 0 else BitVec.allOnes 8) ++ BitVec.allOnes 16 ++ (BitVec.allOnes 32 <<< n)

theorem commandTable_layout : ∀ row ∈ commandTable,
    row.mask = fieldMask row.usesSelector row.dataWidth ∧ row.match_ = packCommand (opcField row.match_) 0 0 := by
  decide

theorem upperBits_zero_iff (d : Word) (n : Nat) : d &&& (BitVec.allOnes 32 <<< n) = 0 ↔ d.toNat < 2 ^ n := by
  constructor
  · intro h
    refine Nat.lt_pow_two_of_testBit _ fun i hi => ?_
    change d.getLsbD i = false
    by_cases top : i < 32
    · have bit := congrArg (·.getLsbD i) h
      have inside : i - n < 32 := by omega
      simpa only [BitVec.getLsbD_and, BitVec.getLsbD_shiftLeft, BitVec.getLsbD_allOnes, BitVec.ofNat_eq_ofNat,
        BitVec.getLsbD_zero, top, inside, Nat.not_lt.mpr hi, decide_true, decide_false, Bool.not_false,
        Bool.and_true] using bit
    · exact BitVec.getLsbD_of_ge d i (Nat.le_of_not_lt top)
  · intro h
    refine BitVec.eq_of_getLsbD_eq fun i hi => ?_
    by_cases low : i < n
    · simp [low]
    · have clear : d.getLsbD i = false :=
        Nat.testBit_lt_two_pow (Nat.lt_of_lt_of_le h (Nat.pow_le_pow_right (by decide) (Nat.le_of_not_lt low)))
      simp [clear]

/-- What a row accepts (R56, R59, R66): its opcode, SEL 0 where it is unused, RSV 0, and a DATA operand that fits. -/
theorem accepts_iff {row : CommandRow} (mem : row ∈ commandTable) (w : CmdWord) :
    w &&& row.mask = row.match_ ↔
      opcField w = opcField row.match_ ∧ (row.usesSelector = false → selField w = 0) ∧ w.extractLsb' 32 16 = 0 ∧
        (dataField w).toNat < 2 ^ row.dataWidth := by
  obtain ⟨mask, match_⟩ := commandTable_layout row mem
  obtain ⟨opc, sel, rsv, data⟩ := (cmdWord_eq_iff row.mask _ _ _ _).mp mask
  have fields := cmdWord_eq_iff (w &&& row.mask) (opcField row.match_) 0 0 0
  rw [BitVec.extractLsb'_and, BitVec.extractLsb'_and, BitVec.extractLsb'_and, BitVec.extractLsb'_and, opc, sel, rsv, data,
    BitVec.and_allOnes, BitVec.and_allOnes, upperBits_zero_iff] at fields
  rw [match_, selField_eq_zero_iff, opcField_packCommand]
  refine fields.trans (and_congr_right' (and_congr_left' ?_))
  cases row.usesSelector with
  | true => simp
  | false => rw [if_neg Bool.false_ne_true, BitVec.and_allOnes]; simp

/-! ### The row of an opcode -/

theorem commandTable_opcodes_nodup : (commandTable.map fun row => opcField row.match_).Nodup := by decide

theorem commandRow?_some {opc : Byte} {row : CommandRow} (h : commandRow? opc = some row) :
    row ∈ commandTable ∧ opcField row.match_ = opc := by
  rw [commandRow?] at h
  have found := List.find?_some h
  exact ⟨List.mem_of_find?_eq_some h, eq_of_beq found⟩

/-- No two rows share an opcode, so the row of an opcode is the one it stands in (R54, R58). -/
theorem commandRow?_of_mem {row : CommandRow} (mem : row ∈ commandTable) :
    commandRow? (opcField row.match_) = some row := by
  cases h : commandRow? (opcField row.match_) with
  | none =>
    rw [commandRow?, List.find?_eq_none] at h
    exact absurd (beq_self_eq_true _) (h row mem)
  | some found =>
    obtain ⟨mem', same⟩ := commandRow?_some h
    rw [List.inj_on_of_nodup_map commandTable_opcodes_nodup mem' mem same]

theorem decodeCommand_of_row {w : CmdWord} {row : CommandRow} (mem : row ∈ commandTable)
    (opc : opcField w = opcField row.match_) :
    decodeCommand w = if w &&& row.mask = row.match_ then .ok (row.operands w) else .error .maskMismatch := by
  rw [decodeCommand, opc, commandRow?_of_mem mem]

/-- A word that decodes was accepted by a row and is read as that row's operands (R66). -/
theorem decodeCommand_eq_ok {w : CmdWord} {i : Instr} (h : decodeCommand w = .ok i) :
    ∃ row ∈ commandTable, w &&& row.mask = row.match_ ∧ row.operands w = i := by
  unfold decodeCommand at h
  split at h
  · cases h
  · rename_i row found
    split at h
    · rename_i accepted
      cases h
      exact ⟨row, (commandRow?_some found).1, accepted, rfl⟩
    · cases h

/-- A packed word decodes to its row's operands when SEL is used or 0 and the DATA operand fits. -/
theorem decodeCommand_packCommand {opc : Byte} {sel n : Nat} {data : Word} {row : CommandRow}
    (found : commandRow? opc = some row) (width : row.dataWidth = n)
    (hsel : row.usesSelector = true ∨ sel % 256 = 0) (hdata : data.toNat < 2 ^ n) :
    decodeCommand (packCommand opc sel data) = .ok (row.operands (packCommand opc sel data)) := by
  obtain ⟨mem, rfl⟩ := commandRow?_some found
  rw [decodeCommand_of_row mem (opcField_packCommand _ _ _), if_pos]
  refine (accepts_iff mem _).mpr ⟨opcField_packCommand _ _ _, fun unused => ?_, rsv_packCommand _ _ _, ?_⟩
  · rw [selField_packCommand, hsel.resolve_left (by simp [unused])]
  · rwa [dataField_packCommand, width]

end Sys2Proof
end

section
/-! PROOFS. The DATA operand (30_encoding.md R59): what is read from a packed word is what was packed, and what is packed
again from what was read is the low bits of DATA. -/

namespace Sys2Proof

/-! ### Read after pack -/

theorem extract_low (w : CmdWord) {n : Nat} (h : n ≤ 32) : w.extractLsb' 0 n = (dataField w).setWidth n := by
  rw [dataField, BitVec.setWidth_extractLsb'_of_le h]

@[simp] theorem lowField_packCommand (opc : Byte) (sel : Nat) (data : Word) {n : Nat} (h : n ≤ 32) :
    (packCommand opc sel data).extractLsb' 0 n = data.setWidth n := by
  rw [extract_low _ h, dataField_packCommand]

@[simp] theorem dataByte_packCommand (opc : Byte) (sel : Nat) (data : Word) :
    dataByte (packCommand opc sel data) = data.setWidth 8 := lowField_packCommand opc sel data (by decide)

@[simp] theorem bitsOf_packCommand_ofNat (opc : Byte) (sel v : Nat) :
    bitsOf (packCommand opc sel (BitVec.ofNat 32 v)) 7 0 = v % 256 := by
  rw [bitsOf, lowField_packCommand _ _ _ (by decide), BitVec.toNat_setWidth, BitVec.toNat_ofNat]
  exact Nat.mod_mod_of_dvd v (by decide)

@[simp] theorem getElem_packCommand (opc : Byte) (sel : Nat) (data : Word) {b : Nat} (h : b < 32) :
    (packCommand opc sel data)[b] = data[b] := by
  rw [← BitVec.getLsbD_eq_getElem, packCommand, BitVec.getLsbD_append, if_pos h, BitVec.getLsbD_eq_getElem]

/-- A flag that stands above a number of `n` bits is read back in bit `n`. -/
theorem flag_of_number (a : Bool) {n d : Nat} (h : d < 2 ^ n) (hn : n < 32) :
    (BitVec.ofNat 32 (a.toNat * 2 ^ n + d))[n] = a := by
  rw [← BitVec.getLsbD_eq_getElem, BitVec.getLsbD_ofNat, Nat.mul_comm, Nat.testBit_two_pow_mul_add _ h,
    if_neg (Nat.lt_irrefl n), Nat.sub_self, decide_eq_true hn]
  cases a <;> rfl

theorem zeroExtend_lt {n : Nat} (h : n ≤ 32) (x : BitVec n) : (x.zeroExtend 32).toNat < 2 ^ n := by
  rw [BitVec.toNat_setWidth_of_le h]
  exact x.isLt

theorem ofNat_toNat_lt {n v : Nat} (h : v < 2 ^ n) : (BitVec.ofNat 32 v).toNat < 2 ^ n :=
  Nat.lt_of_le_of_lt (Nat.mod_le _ _) h

/-! ### Pack after read -/

/-- The low `n` bits of DATA, the rest 0. -/
def lowBits (n : Nat) (data : Word) : Word := (data.setWidth n).setWidth 32

theorem lowBits_of_lt {n : Nat} {data : Word} (h : data.toNat < 2 ^ n) : lowBits n data = data := by
  apply BitVec.eq_of_toNat_eq
  rw [lowBits, BitVec.toNat_setWidth, BitVec.toNat_setWidth, Nat.mod_eq_of_lt h, Nat.mod_eq_of_lt data.isLt]

theorem lowBits_dataField_toNat (w : CmdWord) {n : Nat} (h : n ≤ 32) :
    (lowBits n (dataField w)).toNat = w.toNat % 2 ^ n := by
  have fits : w.toNat % 2 ^ n < 2 ^ 32 :=
    Nat.lt_of_lt_of_le (Nat.mod_lt _ (Nat.two_pow_pos n)) (Nat.pow_le_pow_right (by decide) h)
  rw [lowBits, ← extract_low w h, BitVec.toNat_setWidth, BitVec.extractLsb'_toNat, Nat.shiftRight_zero,
    Nat.mod_eq_of_lt fits]

theorem zero_eq_lowBits (data : Word) : 0 = lowBits 0 data := by
  apply BitVec.eq_of_toNat_eq
  simp [lowBits, Nat.mod_one]

theorem self_eq_lowBits (data : Word) : data = lowBits 32 data := (lowBits_of_lt data.isLt).symm

theorem bits_eq_lowBits (w : CmdWord) {n : Nat} (h : n ≤ 32) :
    (w.extractLsb' 0 n).zeroExtend 32 = lowBits n (dataField w) := by
  rw [extract_low w h, lowBits]

theorem number_eq_lowBits (w : CmdWord) : BitVec.ofNat 32 (bitsOf w 7 0) = lowBits 8 (dataField w) := by
  rw [bitsOf, BitVec.ofNat_toNat]
  exact bits_eq_lowBits w (by decide)

theorem flag_eq_lowBits (w : CmdWord) : BitVec.ofNat 32 (w.getLsbD 0).toNat = lowBits 1 (dataField w) := by
  apply BitVec.eq_of_toNat_eq
  rw [lowBits_dataField_toNat w (by decide), BitVec.toNat_ofNat, BitVec.getLsbD, Nat.toNat_testBit]
  omega

theorem flagged_eq_lowBits (w : CmdWord) :
    BitVec.ofNat 32 ((w.getLsbD 8).toNat * 256 + bitsOf w 7 0) = lowBits 9 (dataField w) := by
  apply BitVec.eq_of_toNat_eq
  rw [lowBits_dataField_toNat w (by decide), BitVec.toNat_ofNat, BitVec.getLsbD, Nat.toNat_testBit, bitsOf,
    BitVec.extractLsb'_toNat]
  omega

end Sys2Proof
end

section
/-! PROOFS. The round trips of 30_encoding.md (R57, R66): decode of encode for every instruction, encode of decode for
every row of the operand table and of the mode table (42_led_effect_codec.md R108). -/

namespace Sys2Proof

/-! ### Encode after decode: command words -/

/-- Encoding what a row reads from any word gives the row's opcode, SEL where it is used, and the bits of DATA that MASK
leaves free: no operand bit is lost and no other bit is kept (R57, R59). -/
def CommandRow.Reencodes (row : CommandRow) : Prop := ∀ w,
  encode (row.operands w) = .command (packCommand (opcField row.match_) (if row.usesSelector then selField w else 0)
    (lowBits row.dataWidth (dataField w)))

/-- Row by row: the fact about the row's DATA operand, its opcode, and its SEL. -/
theorem commandTable_reencodes : ∀ row ∈ commandTable, row.Reencodes := by
  have packed {data data' : Word} (h : data = data') (opc : Byte) (sel : Nat) :
      Presented.command (packCommand opc sel data) = .command (packCommand opc sel data') := by rw [h]
  simp only [commandTable, modelRows, codecRows, List.cons_append, List.nil_append, List.forall_mem_cons]
  exact ⟨
    fun _ => packed (zero_eq_lowBits _) 0x01 0,
    fun _ => packed (zero_eq_lowBits _) 0x02 0,
    fun _ => packed (zero_eq_lowBits _) 0x03 0,
    fun w => packed (number_eq_lowBits w) 0x04 0,
    fun w => packed (zero_eq_lowBits _) 0x05 (selField w),
    fun w => packed (zero_eq_lowBits _) 0x06 (selField w),
    fun _ => packed (zero_eq_lowBits _) 0x07 0,
    fun w => packed (number_eq_lowBits w) 0x08 (selField w),
    fun w => packed (flag_eq_lowBits w) 0x09 (selField w),
    fun w => packed (bits_eq_lowBits w (by decide)) 0x0A (selField w),
    fun _ => packed (self_eq_lowBits _) 0x0B 0,
    fun w => packed (zero_eq_lowBits _) 0x0C (selField w),
    fun w => packed (flagged_eq_lowBits w) 0x10 0,
    fun w => packed (bits_eq_lowBits w (by decide)) 0x11 0,
    fun w => packed (number_eq_lowBits w) 0x12 (selField w),
    fun w => packed (bits_eq_lowBits w (by decide)) 0x13 (selField w),
    fun _ => packed (self_eq_lowBits _) 0x14 0,
    fun _ => packed (self_eq_lowBits _) 0x15 0,
    fun w => packed (bits_eq_lowBits w (by decide)) 0x16 0,
    fun w => packed (bits_eq_lowBits w (by decide)) 0x17 0,
    nofun⟩

theorem fitsByte_selField (w : CmdWord) : fitsByte (selField w) = true := decide_eq_true (w.extractLsb' 48 8).isLt

theorem fitsByte_bitsOf (w : CmdWord) : fitsByte (bitsOf w 7 0) = true := decide_eq_true (w.extractLsb' 0 8).isLt

theorem operands_wellFormed : ∀ row ∈ commandTable, ∀ w, (row.operands w).wellFormed = true := by
  simp [commandTable, modelRows, codecRows, Instr.wellFormed, fitsByte_selField, fitsByte_bitsOf]

/-- A word a row accepts is the encoding of what the row reads from it (R57, R68). -/
theorem encode_operands {row : CommandRow} (mem : row ∈ commandTable) {w : CmdWord} (h : w &&& row.mask = row.match_) :
    encode (row.operands w) = .command w := by
  obtain ⟨opc, unused, rsv, data⟩ := (accepts_iff mem w).mp h
  have sel : (if row.usesSelector then selField w else 0) = selField w := by
    cases used : row.usesSelector with
    | true => rfl
    | false => exact (unused used).symm
  rw [commandTable_reencodes row mem w, sel, lowBits_of_lt data, ← opc, packCommand_fields rsv]

theorem encode_of_decodeCommand {w : CmdWord} {i : Instr} (h : decodeCommand w = .ok i) :
    i.wellFormed = true ∧ encode i = .command w := by
  obtain ⟨row, mem, accepted, rfl⟩ := decodeCommand_eq_ok h
  exact ⟨operands_wellFormed row mem w, encode_operands mem accepted⟩

/-! ### Encode after decode: raw quads -/

/-- A raw quad is its mode byte and its three arguments (R62). -/
theorem packQuad_bytes (q : Word) :
    packQuad (q.extractLsb' 24 8) (q.extractLsb' 16 8) (q.extractLsb' 8 8) (q.extractLsb' 0 8) = q := by
  have upper := BitVec.extractLsb'_append_extractLsb'_eq_extractLsb' (x := q) (show 24 = 16 + 8 from rfl) (len₂ := 8)
  have front := BitVec.extractLsb'_append_extractLsb'_eq_extractLsb' (x := q) (show 16 = 8 + 8 from rfl) (len₂ := 16)
  have whole := BitVec.extractLsb'_append_extractLsb'_eq_extractLsb' (x := q) (show 8 = 0 + 8 from rfl) (len₂ := 24)
  rw [packQuad, wordOfBytes, upper, front, whole, BitVec.extractLsb'_eq_self]

theorem ledOpcodes_encode : ∀ e ∈ ledOpcodes, ∀ a1 a2 a3,
    (e.2 a1 a2 a3).wellFormed = true ∧ encode (e.2 a1 a2 a3) = .quad (packQuad e.1 a1 a2 a3) := by
  simp [ledOpcodes, encode, Instr.wellFormed]

theorem encode_of_decodeQuad {q : Word} {i : Instr} (h : decodeQuad q = .ok i) :
    i.wellFormed = true ∧ encode i = .quad q := by
  unfold decodeQuad at h
  split at h
  · cases h
  · rename_i mode build found
    cases h
    have matched := List.find?_some found
    have same : mode = q.extractLsb' 24 8 := eq_of_beq matched
    have built := ledOpcodes_encode _ (List.mem_of_find?_eq_some found) (q.extractLsb' 16 8) (q.extractLsb' 8 8)
      (q.extractLsb' 0 8)
    rwa [same, packQuad_bytes] at built

/-! ### Decode after encode -/

theorem decodeQuad_packQuad {mode : Byte} {build : Byte → Byte → Byte → Instr}
    (found : (ledOpcodes.find? fun e => e.1 == mode) = some (mode, build)) (a1 a2 a3 : Byte) :
    decodeQuad (packQuad mode a1 a2 a3) = .ok (build a1 a2 a3) := by
  simp only [decodeQuad, quadOfBytes_mode, quadOfBytes_arg1, quadOfBytes_arg2, quadOfBytes_arg3, found]

/-- The cases are grouped by the operand fields of R59: each packed word passes its row's MASK, and each field is read
back as it was packed. -/
theorem decode_encode (i : Instr) (wf : i.wellFormed = true) : decode (encode i) = .ok i := by
  have fits {n : Nat} (h : fitsByte n = true) : n < 256 := of_decide_eq_true h
  cases i with
  | loaddef | load | rdraw | getled => rfl
  | rdfld n | getprof n | rdstat n =>
    exact (decodeCommand_packCommand (data := 0) rfl rfl (.inl rfl) (by decide)).trans
      (by simp [Nat.mod_eq_of_lt (fits wf)])
  | rdbyte o =>
    exact (decodeCommand_packCommand (sel := 0) (n := 8) rfl rfl (.inr rfl) (ofNat_toNat_lt (fits wf))).trans
      (by simp [Nat.mod_eq_of_lt (fits wf)])
  | setdpi n v | affenc n v =>
    obtain ⟨hn, hv⟩ := Bool.and_eq_true_iff.mp wf
    exact (decodeCommand_packCommand (n := 8) rfl rfl (.inl rfl) (ofNat_toNat_lt (fits hv))).trans
      (by simp [Nat.mod_eq_of_lt (fits hn), Nat.mod_eq_of_lt (fits hv)])
  | setact n a =>
    have flag : (BitVec.ofNat 32 a.toNat)[0] = a := by simpa using flag_of_number a (n := 0) (d := 0)
    exact (decodeCommand_packCommand (n := 1) rfl rfl (.inl rfl) (ofNat_toNat_lt a.toNat_lt)).trans
      (by simp [Nat.mod_eq_of_lt (fits wf), flag])
  | setrgb n c =>
    exact (decodeCommand_packCommand rfl rfl (.inl rfl) (zeroExtend_lt (by decide) c)).trans
      (by simp [Nat.mod_eq_of_lt (fits wf)])
  | dpienc a d =>
    have bound := a.toNat_lt
    have low := fits wf
    have flag : (BitVec.ofNat 32 (a.toNat * 256 + d))[8] = a := flag_of_number a (n := 8) low (by decide)
    exact (decodeCommand_packCommand (sel := 0) (n := 9) rfl rfl (.inr rfl) (ofNat_toNat_lt (by omega))).trans
      (by simp [Nat.mod_eq_of_lt low, flag])
  | affdec n r =>
    exact (decodeCommand_packCommand rfl rfl (.inl rfl) (zeroExtend_lt (by decide) r)).trans
      (by simp [Nat.mod_eq_of_lt (fits wf)])
  | setled d | ledenc d | leddec d =>
    exact (decodeCommand_packCommand (sel := 0) rfl rfl (.inr rfl) d.isLt).trans (by simp)
  | cntenc m =>
    exact (decodeCommand_packCommand (sel := 0) rfl rfl (.inr rfl) (zeroExtend_lt (by decide) m)).trans (by simp)
  | dpidec r | cntdec r =>
    exact (decodeCommand_packCommand (sel := 0) rfl rfl (.inr rfl) (zeroExtend_lt (by decide) r)).trans (by simp)
  | ledSteady a b c | ledBreathe a b c | ledBlinkResp a b c | ledBlinkGlow a b c | ledBlinkNeon a b c
  | ledHoldResp a b c | ledHoldGlow a b c | ledHoldNeon a b c => exact decodeQuad_packQuad rfl a b c

end Sys2Proof

namespace Sys2Proof.Proofs

/-- Settles O1: the round trip of each constructor, grouped by its operand fields. -/
theorem decodeInvertsEncode : Obligations.DecodeInvertsEncode := decode_encode

/-- Settles O2: a command word by the row that accepts it, a raw quad by its mode. -/
theorem encodeInvertsDecode : Obligations.EncodeInvertsDecode := by
  intro p i h
  cases p with
  | command w => exact encode_of_decodeCommand h
  | quad q => exact encode_of_decodeQuad h

/-- Settles O3: each word the spec writes out is the encoding of a well-formed instruction. -/
theorem specWordsDecode : Obligations.SpecWordsDecode :=
  ⟨decode_encode .load rfl, decode_encode (.setact 2 false) rfl, decode_encode (.setdpi 2 40) rfl,
    decode_encode (.setrgb 4 0x123456) rfl, decode_encode (.setled 0x80050302) rfl, decode_encode (.setled 0xE0010001) rfl,
    decode_encode (.rdfld 12) rfl, decode_encode (.affenc 0 10) rfl, decode_encode (.leddec 0x42050322) rfl,
    decode_encode (.dpienc false 4) rfl, decode_encode (.rdstat 1) rfl, decode_encode (.ledBlinkResp 5 3 0x22) rfl⟩

end Sys2Proof.Proofs
end

section
/-! PROOFS. Words that select no instruction, and selectors out of range (30_encoding.md R55, R56, R66 to R68). -/

namespace Sys2Proof.Machine
open Sys2Proof.Claims

/-! ### Raising -/

theorem infoOf_toNat (e : Exc) : (infoOf e).toNat = e.cause.toNat * 2 ^ 24 + e.detail.toNat := by
  rw [infoOf, BitVec.toNat_append, ← Nat.shiftLeft_add_eq_or_of_lt e.detail.isLt, Nat.shiftLeft_eq]

/-- `State.raise` raises its exception: the response, the record, and nothing else (R150, R151). -/
theorem raises_raise (s : State) (e : Exc) : Raises s (s.raise e) e.kind.code e.cause.toNat e.detail.toNat where
  resp := rfl
  lastCode := by
    rw [State.raise_status, lastCode_statusOnRaise]
    cases e.kind <;> rfl
  sticky := by
    have positive : 1 ≤ e.kind.code := by cases e.kind <;> decide
    rw [State.raise_status, statusOnRaise_high _ _ _ (by omega), stickyBit, decide_eq_true rfl, Bool.or_true]
  kept := fun b high other => by
    rw [State.raise_status, statusOnRaise_high _ _ _ high, stickyBit, decide_eq_false other, Bool.or_false]
  lastInfo := infoOf_toNat e
  report := ⟨fun _ => rfl, rfl, rfl⟩
  ports := ⟨rfl, rfl, rfl⟩

/-- A detail of R148 that fits its 24 bits is recorded whole. -/
theorem detailOf_toNat {n : Nat} (h : n < 2 ^ 24) : (detailOf n).toNat = n := Nat.mod_eq_of_lt h

theorem runPresented_error {p : Presented} {d : DecodeError} (h : decode p = .error d) (s : State) :
    runPresented p s = .next (s.raise (excOfDecodeError d)) := by
  rw [runPresented, h]

/-! ### Unassigned opcodes -/

theorem mem_assignedOpcodes_iff (opc : Byte) :
    opc.toNat ∈ assignedOpcodes ↔ ∃ row ∈ commandTable, opcField row.match_ = opc := by
  have rows : assignedOpcodes = commandTable.map fun row => (opcField row.match_).toNat := by decide
  simp only [rows, List.mem_map, BitVec.toNat_inj]

theorem decodeCommand_unassigned {w : CmdWord} (h : (opcField w).toNat ∉ assignedOpcodes) :
    decodeCommand w = .error (.unassignedOpcode (opcField w)) := by
  have noRow : commandRow? (opcField w) = none := by
    refine Option.eq_none_iff_forall_ne_some.mpr fun row found => h ?_
    exact (mem_assignedOpcodes_iff _).mpr ⟨row, commandRow?_some found⟩
  rw [decodeCommand, noRow]

/-! ### Bits under MASK -/

theorem mismatch_raises {w : CmdWord} {row : CommandRow} (mem : row ∈ commandTable)
    (opc : opcField w = opcField row.match_) (h : w &&& row.mask ≠ row.match_) (s : State) :
    ∃ t, runPresented (.command w) s = .next t ∧ Raises s t 3 0x21 0 := by
  have dec : decode (.command w) = .error .maskMismatch := by rw [decode, decodeCommand_of_row mem opc, if_neg h]
  exact ⟨s.raise .maskMismatch, runPresented_error dec s, raises_raise s .maskMismatch⟩

theorem usesSelector_of_opcode : ∀ row ∈ commandTable,
    (opcField row.match_).toNat ∈ opcodesWithoutSelector → row.usesSelector = false := by decide

theorem opcodesWithoutSelector_assigned : opcodesWithoutSelector ⊆ assignedOpcodes := by decide

/-! ### Selectors out of range -/

theorem profileSlot_above {pid : Nat} (h : 4 < pid) : profileSlot pid = .error (.badSelector pid) := dif_neg (by omega)

theorem familyOfSel_above {sel : Nat} (h : 5 < sel) : familyOfSel sel = .error (.badSelector sel) := by
  match sel, h with
  | n + 6, _ => rfl

theorem fieldPlace_above {f : Nat} (h : 15 < f) : fieldPlace f = .error (.badSelector f) := by
  rw [fieldPlace]
  repeat rw [if_neg (by omega)]

theorem badSelector_raises {r : Result} {s : State} {sel : Nat} (h : r = .next (s.raise (.badSelector sel)))
    (fits : sel < 256) : ∃ t, r = .next t ∧ Raises s t 2 0x10 sel := by
  have raised := raises_raise s (.badSelector sel)
  rw [Exc.badSelector, detailOf_toNat (by omega)] at raised
  exact ⟨_, h, raised⟩

end Sys2Proof.Machine

namespace Sys2Proof.Proofs
open Sys2Proof.Machine Sys2Proof.Claims

/-- Settles O4: none of these opcodes is in the table. -/
theorem unassignedOpcodesRaise : Obligations.UnassignedOpcodesRaise := by
  intro w s h
  have unassigned : bitsOf w 63 56 ∉ assignedOpcodes := by
    simp only [assignedOpcodes, List.mem_cons, List.not_mem_nil, or_false]
    omega
  have raised := raises_raise s (.unassignedOpcode (opcField w))
  rw [Exc.unassignedOpcode, detailOf_toNat (Nat.lt_of_lt_of_le (opcField w).isLt (by decide))] at raised
  exact ⟨_, runPresented_error (p := .command w) (decodeCommand_unassigned unassigned) s, raised⟩

/-- Settles O5: the row of the word's opcode is this row, and it does not accept the word. -/
theorem maskMismatchRaises : Obligations.MaskMismatchRaises :=
  fun _ _ s mem opc h => mismatch_raises mem (BitVec.eq_of_toNat_eq opc) h s

/-- Settles O6: a row accepts no word whose RSV is not 0. -/
theorem reservedFieldRaises : Obligations.ReservedFieldRaises := by
  intro w s assigned rsv
  obtain ⟨row, mem, opc⟩ := (mem_assignedOpcodes_iff (opcField w)).mp assigned
  refine mismatch_raises mem opc.symm (fun accepted => rsv ?_) s
  obtain ⟨-, -, zero, -⟩ := (accepts_iff mem w).mp accepted
  exact congrArg BitVec.toNat zero

/-- Settles O7: the selector is checked before any other operand, and a row that does not use SEL accepts only SEL 0. -/
theorem selectorRules : Obligations.SelectorRules := by
  refine ⟨fun s sel fits => ⟨fun h => ?rdfld, fun h => ?getprof, fun h d => ?setdpi, fun h a => ?setact, fun h c => ?setrgb,
    fun h => ?rdstat, fun h id => ?affenc, fun h r => ?affdec⟩, fun w s unused sel => ?unused⟩
  case rdfld => exact badSelector_raises (by rw [exec, execRdfld, fieldPlace_above h]; rfl) fits
  case getprof => exact badSelector_raises (by rw [exec, execGetprof, profileSlot_above h]; rfl) fits
  case setdpi => exact badSelector_raises (by rw [exec, execSetdpi, profileSlot_above h]; rfl) fits
  case setact => exact badSelector_raises (by rw [exec, execSetact, profileSlot_above h]; rfl) fits
  case setrgb => exact badSelector_raises (by rw [exec, execSetrgb, profileSlot_above h]; rfl) fits
  case rdstat =>
    match sel, h with
    | n + 2, _ => exact badSelector_raises rfl fits
  case affenc => exact badSelector_raises (by rw [exec, execAffenc, familyOfSel_above h]; rfl) fits
  case affdec => exact badSelector_raises (by rw [exec, execAffdec, familyOfSel_above h]; rfl) fits
  case unused =>
    obtain ⟨row, mem, opc⟩ := (mem_assignedOpcodes_iff (opcField w)).mp (opcodesWithoutSelector_assigned unused)
    refine mismatch_raises mem opc.symm (fun accepted => sel ?_) s
    obtain ⟨-, zero, -, -⟩ := (accepts_iff mem w).mp accepted
    exact zero (usesSelector_of_opcode row mem (by rw [opc]; exact unused))

end Sys2Proof.Proofs
end

section
/-! PROOFS. The assembler (30_encoding.md R73 to R76): a line's words decode to the commands of its expansion, and a run
over them performs these one by one (70_reset_and_hazards.md R177). -/

namespace Sys2Proof.Machine

theorem commandWord?_some {i : Instr} {w : CmdWord} (h : commandWord? i = some w) : encode i = .command w := by
  unfold commandWord? at h
  split at h
  · rename_i enc
    cases h
    exact enc
  · cases h

/-- The words of well-formed commands decode to these commands, in order (R75). -/
theorem decode_commandWords (is : List Instr) (h : ∀ i ∈ is, i.wellFormed = true ∧ (commandWord? i).isSome = true) :
    (is.filterMap commandWord?).map (fun w => decode (.command w)) = is.map .ok := by
  induction is with
  | nil => rfl
  | cons i is ih =>
    obtain ⟨⟨wf, isCommand⟩, rest⟩ := List.forall_mem_cons.mp h
    obtain ⟨w, word⟩ := Option.isSome_iff_exists.mp isCommand
    rw [List.filterMap_cons_some word, List.map_cons, List.map_cons, ih rest, ← commandWord?_some word, decode_encode i wf]

/-- A run whose next word is the encoding of an instruction performs it and goes on from there (R16, R66). -/
theorem run_encode {s t : State} {i : Instr} {win : List Byte} {rest : List Input} (k : Nat) (wf : i.wellFormed = true)
    (pending : s.pending = .present (encode i) win :: rest) (h : exec i (s.accept win rest) = .next t) :
    core.run (k + 1) s = core.run k t := by
  obtain ⟨-, decoded, -⟩ := Proofs.stepRunsTheDecodedInstruction s _ win rest pending
  have stepped : core.step s = .next t := (decoded i (decode_encode i wf)).trans h
  simp only [Host.Core.run, stepped]

/-! ### The three commands of setprof -/

theorem profileSlot_val (i : Fin 5) : profileSlot i.val = .ok i := dif_pos i.isLt

theorem dpiIndex_above {d : Nat} (h : 126 < d) : dpiIndex d = .error (.badDpiIndex d) := dif_neg (by omega)

theorem exec_setact (s : State) (i : Fin 5) (a : Bool) : exec (.setact i.val a) s =
    .next ((s.writeProfileDpi i { s.cache.prof[i] with active := a }).recount.complete 0 []) := by
  rw [exec, execSetact, profileSlot_val]
  rfl

theorem exec_setrgb (s : State) (i : Fin 5) (c : Word24) : exec (.setrgb i.val c) s =
    .next ((s.writeProfileRgb i { s.cache.prof[i] with rgb := c }).complete 0 []) := by
  rw [exec, execSetrgb, profileSlot_val]
  rfl

theorem exec_setdpi_above (s : State) (i : Fin 5) {d : Nat} (h : 126 < d) :
    exec (.setdpi i.val d) s = .next (s.raise (.badDpiIndex d)) := by
  rw [exec, execSetdpi, profileSlot_val, dpiIndex_above h]
  rfl

end Sys2Proof.Machine

namespace Sys2Proof.Proofs
open Sys2Proof.Machine

/-- Settles O56: the assembler is run on each line. -/
theorem exampleLinesAssemble : Obligations.ExampleLinesAssemble := ⟨rfl, rfl, rfl, rfl, rfl, rfl, rfl, rfl, rfl⟩

/-- Settles O57: every command of an expansion is well formed and has a command word. -/
theorem pseudoInstructionsExpand : Obligations.PseudoInstructionsExpand := by
  intro p d a rgb hp hd
  have pid : p < 256 := by omega
  refine ⟨decode_commandWords [_] ?_, decode_commandWords [_] ?_, decode_commandWords [_] ?_, decode_commandWords [_] ?_,
    decode_commandWords [_] ?_, decode_commandWords [_, _, _] ?_⟩ <;>
    simp [Instr.wellFormed, commandWord?, encode, fitsByte, pid, hd]

/-- Settles O58: SETACT writes, SETDPI raises and writes nothing, SETRGB writes and clears LAST_CODE. -/
theorem setprofIsNotAtomic : Obligations.SetprofIsNotAtomic := by
  intro s i a d rgb bad fits pending
  have pid : fitsByte i.val = true := decide_eq_true (by omega)
  have operands : (Instr.setdpi i.val d).wellFormed = true := Bool.and_eq_true_iff.mpr ⟨pid, decide_eq_true fits⟩
  refine ⟨_, Eq.trans (run_encode (i := .setact i.val a) 2 pid pending (exec_setact _ i a))
    (Eq.trans (run_encode (i := .setdpi i.val d) 1 operands rfl (exec_setdpi_above _ i bad))
      (run_encode (i := .setrgb i.val rgb) 0 pid rfl (exec_setrgb _ i rgb))), ?_, ?_, ?_⟩
  · simp
  · exact (statusOnSuccess_high _ 8 (by decide)).trans
      ((statusOnRaise_high _ .invalidRawInput 8 (by decide)).trans (Bool.or_true _))
  · exact lastCode_statusOnSuccess _

end Sys2Proof.Proofs
end

section
/-! PROOFS. Reading RPT as bytes (40_raw_report.md R79 to R81): a report in its form has each byte that RDRAW, RDBYTE and
RDFLD need, so each succeeds with what stands there. -/

namespace Sys2Proof.Machine
open Sys2Proof.Claims

/-! ### Success without a write -/

/-- `State.complete` succeeds with its word and bytes: the response, the record, and nothing else (R151). -/
theorem succeeds_complete (s : State) (d : Word) (w : List Byte) : Succeeds s (s.complete d w) d w where
  resp := rfl
  lastCode := lastCode_statusOnSuccess s.status
  kept := statusOnSuccess_high s.status
  lastInfo := rfl
  ports := ⟨rfl, rfl, rfl⟩

theorem keepsReport_complete (s : State) (d : Word) (w : List Byte) : KeepsReport s (s.complete d w) :=
  ⟨fun _ => rfl, rfl, rfl⟩

/-! ### The bytes of a report in its form -/

theorem Memory.exists_read {m : Memory} (wf : m.wf = true) {o : Nat} (h : o < reportSize) : ∃ b, m.read o = some b :=
  Option.isSome_iff_exists.mp ((Memory.read_isSome_iff m wf o).mpr h)

theorem Memory.allBytes?_of_wf {m : Memory} (wf : m.wf = true) : m.allBytes? = some (m.map Prod.snd) := if_pos wf

/-- Element `o` of the byte list is the byte at offset `o` (R42). -/
theorem Memory.bytes_getElem? {m : Memory} (wf : m.wf = true) {o : Nat} (h : o < reportSize) :
    (m.map Prod.snd)[o]? = m.read o := by
  have listed : o < m.length := by rw [Memory.wf_length m wf]; exact h
  rw [(Memory.wf_getElem m wf o listed).2, List.getElem?_map, List.getElem?_eq_getElem listed, Option.map_some]

/-- `MemRead` of three bytes, the first most significant (R11, R41). -/
theorem Memory.memRead_three {m : Memory} {o : Nat} {c0 c1 c2 : Byte} (h0 : m.read o = some c0)
    (h1 : m.read (o + 1) = some c1) (h2 : m.read (o + 2) = some c2) :
    m.memRead o 3 = some (c0.toNat * 65536 + c1.toNat * 256 + c2.toNat) := by
  rw [Memory.memRead_succ (Memory.memRead_succ (Memory.memRead_one h0) h1) h2, Nat.add_mul, Nat.mul_assoc]

theorem wordOfByte_eq_ofNat (b : Byte) : wordOfByte b = BitVec.ofNat 32 b.toNat := (BitVec.ofNat_toNat 32 b).symm

/-! ### The places of the named fields -/

/-- The one-byte fields of R64: field id and offset. -/
def byteFields : List (Nat × Nat) :=
  [(0, 8), (1, 71), (2, 74), (3, 75), (4, 76), (5, 77), (6, 78), (7, 93), (8, 94), (9, 95), (10, 96)]

theorem fieldPlace_byteFields : ∀ fo ∈ byteFields, fieldPlace fo.1 = .ok (fo.2, 1) ∧ fo.2 < reportSize := by
  simp [byteFields, fieldPlace, reportSize]

theorem fieldPlace_colour (i : Fin 5) : fieldPlace (11 + i.val) = .ok (100 + 3 * i.val, 3) := by
  match i with
  | 0 | 1 | 2 | 3 | 4 => rfl

/-! ### What the three commands do -/

theorem exec_rdraw {s : State} (wf : s.rpt.wf = true) : exec .rdraw s = .next (s.complete 0 (s.rpt.map Prod.snd)) := by
  rw [exec, execRdraw, Memory.allBytes?_of_wf wf, withReportData]

theorem exec_rdbyte {s : State} {o : Nat} {b : Byte} (legal : o ≤ 153) (read : s.rpt.read o = some b) :
    exec (.rdbyte o) s = .next (s.complete (BitVec.ofNat 32 b.toNat) []) := by
  have place : reportOffset o = .ok o := if_pos legal
  simp only [exec, execRdbyte, place, read, withReportData, answer, wordOfByte_eq_ofNat]

theorem exec_rdfld {s : State} {f o n v : Nat} (place : fieldPlace f = .ok (o, n)) (read : s.rpt.memRead o n = some v) :
    exec (.rdfld f) s = .next (s.complete (BitVec.ofNat 32 v) []) := by
  simp only [exec, execRdfld, place, read, withReportData, answer]

end Sys2Proof.Machine

namespace Sys2Proof.Proofs
open Sys2Proof.Machine Sys2Proof.Claims

/-- Settles O14: a report in its form lists its 154 bytes by offset. -/
theorem rdrawDrivesTheReport : Obligations.RdrawDrivesTheReport := by
  intro s wf
  have size : (s.rpt.map Prod.snd).length = 154 := Memory.allBytes?_length (Memory.allBytes?_of_wf wf)
  exact ⟨_, _, exec_rdraw wf, succeeds_complete s _ _, keepsReport_complete s _ _, size,
    fun _ h => Memory.bytes_getElem? wf h⟩

/-- Settles O15: a report in its form has a byte, opaque or not, at each of these offsets. -/
theorem rdbyteReadsTheByte : Obligations.RdbyteReadsTheByte := by
  intro s o wf legal
  obtain ⟨b, read⟩ := Memory.exists_read wf (Nat.lt_succ_of_le legal)
  exact ⟨_, b, read, exec_rdbyte legal read, succeeds_complete s _ _, keepsReport_complete s _ _⟩

/-- Settles O16: the places of R64 lie in the report, where `MemRead` of one byte or of three answers. -/
theorem rdfldReadsTheField : Obligations.RdfldReadsTheField := by
  refine fun s wf => ⟨fun fo mem => ?byteField, fun i => ?colour⟩
  case byteField =>
    obtain ⟨place, inside⟩ := fieldPlace_byteFields fo mem
    obtain ⟨b, read⟩ := Memory.exists_read wf inside
    exact ⟨_, b, read, exec_rdfld place (Memory.memRead_one read), succeeds_complete s _ _, keepsReport_complete s _ _⟩
  case colour =>
    have byte (k : Nat) (h : k < 3) := Memory.exists_read wf (o := 100 + 3 * i.val + k) (by simp only [reportSize]; omega)
    obtain ⟨c0, h0⟩ := byte 0 (by decide)
    obtain ⟨c1, h1⟩ := byte 1 (by decide)
    obtain ⟨c2, h2⟩ := byte 2 (by decide)
    have field := exec_rdfld (fieldPlace_colour i) (Memory.memRead_three h0 h1 h2)
    rw [Nat.add_right_comm] at h1 h2
    exact ⟨_, c0, c1, c2, h0, h1, h2, field, succeeds_complete s _ _, keepsReport_complete s _ _⟩

end Sys2Proof.Proofs
end

section
/-! PROOFS. The field codecs (41_field_codecs.md): the DPI packer and its inverse (R87 to R90), the affine codes (R91 to
R94), the active count (R100, R102), and the commands that answer with them (R96 to R99, R103, R104). -/

namespace Sys2Proof.Machine
open Sys2Proof.Claims

/-! ### Commands that only compute -/

/-- A command that ends with a word and no write succeeds with it and keeps RPT and C (R106, R151). -/
theorem succeeds_of_exec {i : Instr} {s : State} {d : Word} (h : exec i s = .next (s.complete d [])) :
    ∃ t, exec i s = .next t ∧ KeepsReport s t ∧ Succeeds s t d [] :=
  ⟨_, h, keepsReport_complete s d [], succeeds_complete s d []⟩

theorem keepsReport_answer {s t : State} {r : Except Exc Word} (h : answer s r = .next t) : KeepsReport s t := by
  obtain ⟨d, -, rfl⟩ | ⟨e, -, rfl⟩ := answer_cases h
  · exact keepsReport_complete s d []
  · exact (raises_raise s e).report

/-- A codec command ends with a word or an exception that its operands alone give (R106, R116, R117; the LED rows: log
6). -/
theorem exec_eq_answer_of_isCodec {i : Instr} (codec : isCodec i = true) : ∃ r, ∀ s, exec i s = answer s r := by
  cases i with
  | dpienc | dpidec | affenc | affdec | ledenc | leddec | cntdec | ledSteady | ledBreathe | ledBlinkResp
    | ledBlinkGlow | ledBlinkNeon | ledHoldResp | ledHoldGlow | ledHoldNeon => exact ⟨_, fun _ => rfl⟩
  | cntenc m => exact ⟨.ok (wordOfByte (cntEnc m)), fun _ => rfl⟩
  | _ => cases codec

/-! ### The DPI packer -/

theorem dpiIndex_val (d : DpiIndex) : dpiIndex d.val = .ok d := dif_pos d.isLt

theorem dpiEnc_val (a : Bool) (d : DpiIndex) : dpiEnc a d.val = .ok (dpiByte a d) := by
  rw [dpiEnc, dpiIndex_val]
  rfl

/-- The byte of `dpi_enc` as a number: bit 7 is set for an inactive profile (R87, R88). -/
theorem dpiByte_toNat (a : Bool) (d : DpiIndex) : (dpiByte a d).toNat = (if a then 0 else 128) + d.val + 1 := by
  rw [dpiByte, BitVec.toNat_ofNat]
  cases a with
  | false => simp only [Bool.toNat_false, Bool.false_eq_true, if_false]; omega
  | true => simp only [Bool.toNat_true, if_true]; omega

theorem bitsOf_6_0 (r : Byte) : bitsOf r 6 0 = r.toNat % 128 := by
  simp [bitsOf, BitVec.extractLsb'_toNat]

/-- A byte is its bit 7 above its bits 6:0 (R88). -/
theorem toNat_eq_bit7_add (r : Byte) : r.toNat = (if r.getLsbD 7 then 128 else 0) + bitsOf r 6 0 := by
  have bit : r.getLsbD 7 = decide (r.toNat / 128 % 2 = 1) := Nat.testBit_eq_decide_div_mod_eq
  have fits : r.toNat < 256 := r.isLt
  simp only [bit, bitsOf_6_0, decide_eq_true_eq]
  split <;> omega

/-- `dpi_dec` of a byte whose bits 6:0 are not zero: the flag inverted, the index one less (R89). -/
theorem dpiDec_of_bits {r : Byte} (h : bitsOf r 6 0 ≠ 0) :
    ∃ d : DpiIndex, d.val = bitsOf r 6 0 - 1 ∧ ∀ loc, dpiDec r loc = .ok (!r.getLsbD 7, d) :=
  ⟨⟨bitsOf r 6 0 - 1, by rw [bitsOf_6_0]; omega⟩, rfl, fun _ => dif_neg h⟩

/-- The byte packed again from what it decodes to is the byte (R90). -/
theorem dpiByte_of_bits {r : Byte} {d : DpiIndex} (h : bitsOf r 6 0 ≠ 0) (index : d.val = bitsOf r 6 0 - 1) :
    dpiByte (!r.getLsbD 7) d = r := by
  apply BitVec.eq_of_toNat_eq
  rw [dpiByte_toNat, toNat_eq_bit7_add r, index]
  cases r.getLsbD 7 with
  | false => simp only [Bool.not_false, Bool.false_eq_true, if_true, if_false]; omega
  | true => simp only [Bool.not_true, Bool.false_eq_true, if_true, if_false]; omega

/-- The two bytes that are no DPI byte (R90). -/
theorem bitsOf_6_0_eq_zero_iff (r : Byte) : bitsOf r 6 0 = 0 ↔ r = 0x00 ∨ r = 0x80 := by
  rw [bitsOf_6_0, ← BitVec.toNat_inj, ← BitVec.toNat_inj]
  have fits : r.toNat < 256 := r.isLt
  simp only [BitVec.ofNat_eq_ofNat, BitVec.toNat_ofNat]
  omega

theorem exec_dpienc (a : Bool) (d : DpiIndex) (s : State) :
    exec (.dpienc a d.val) s = .next (s.complete (BitVec.ofNat 32 ((if a then 0 else 128) + d.val + 1)) []) := by
  rw [exec, execDpienc, dpiEnc_val, ← dpiByte_toNat, ← wordOfByte_eq_ofNat]
  rfl

theorem exec_dpidec {r : Byte} (h : bitsOf r 6 0 ≠ 0) (s : State) : exec (.dpidec r) s =
    .next (s.complete (BitVec.ofNat 32 ((if r.getLsbD 7 then 0 else 256) + (bitsOf r 6 0 - 1))) []) := by
  obtain ⟨d, index, dec⟩ := dpiDec_of_bits h
  have pair : dpiPair (!r.getLsbD 7) d = BitVec.ofNat 32 ((if r.getLsbD 7 then 0 else 256) + (bitsOf r 6 0 - 1)) := by
    rw [dpiPair, index]
    cases r.getLsbD 7 <;> rfl
  rw [exec, execDpidec, dec 0, ← pair]
  rfl

/-! ### The affine codes -/

theorem affEnc_of_hasId {f : Family} {id : Nat} (h : f.hasId id = true) : affEnc f id = .ok (affCode f id) := if_pos h

/-- The quotient of R93 is at most the raw byte, so an id read from a byte is one. -/
theorem affDec_toNat (f : Family) (r : Byte) : (affDec f r).toNat = affQuotient f r := by
  have small : affQuotient f r ≤ r.toNat := (Nat.div_le_self _ _).trans (Nat.sub_le _ _)
  rw [affDec, BitVec.toNat_ofNat, Nat.mod_eq_of_lt (small.trans_lt r.isLt)]

/-- A legal raw byte is the code of the id `aff_dec` gives for it (R93, R94). -/
theorem affCode_affQuotient {f : Family} {r : Byte} (h : affOk f r = true) :
    f.hasId (affQuotient f r) = true ∧ affCode f (affQuotient f r) = r := by
  simp only [affOk, Bool.and_eq_true, decide_eq_true_eq, beq_iff_eq] at h
  obtain ⟨⟨base, exact⟩, id⟩ := h
  refine ⟨id, BitVec.eq_of_toNat_eq ?_⟩
  rw [affCode_toNat f ((f.hasId_iff _).mp id).2, affQuotient, Nat.div_mul_cancel (Nat.dvd_of_mod_eq_zero exact),
    Nat.sub_add_cancel base]

/-- The legal raw bytes are the codes of the ids (R94). -/
theorem affOk_iff (f : Family) (r : Byte) :
    affOk f r = true ↔ ∃ id, 1 ≤ id ∧ id ≤ f.count ∧ r.toNat = id * f.step + f.base := by
  constructor
  · intro ok
    obtain ⟨legal, code⟩ := affCode_affQuotient ok
    obtain ⟨low, high⟩ := (f.hasId_iff _).mp legal
    exact ⟨_, low, high, by rw [← affCode_toNat f high, code]⟩
  · rintro ⟨id, low, high, number⟩
    have code : r = affCode f id := BitVec.eq_of_toNat_eq (by rw [number, affCode_toNat f high])
    rw [code]
    exact affOk_affCode f ((f.hasId_iff id).mpr ⟨low, high⟩)

theorem affCode_injective (f : Family) {id id' : Nat} (h : id ≤ f.count) (h' : id' ≤ f.count)
    (same : affCode f id = affCode f id') : id = id' := by
  rw [← affQuotient_affCode f h, same, affQuotient_affCode f h']

theorem wordOfByte_affCode (f : Family) {id : Nat} (h : id ≤ f.count) :
    wordOfByte (affCode f id) = BitVec.ofNat 32 (id * f.step + f.base) := by
  rw [wordOfByte_eq_ofNat, affCode_toNat f h]

theorem exec_affenc {sel : Nat} {f : Family} {id : Nat} (fam : familyOfSel sel = .ok f) (h : f.hasId id = true)
    (s : State) : exec (.affenc sel id) s = .next (s.complete (BitVec.ofNat 32 (id * f.step + f.base)) []) := by
  rw [exec, execAffenc, fam, ← wordOfByte_affCode f ((f.hasId_iff id).mp h).2]
  simp only [bind, Except.bind, affEnc_of_hasId h]
  rfl

theorem exec_affdec {sel : Nat} {f : Family} {id : Nat} (fam : familyOfSel sel = .ok f) (h : f.hasId id = true)
    (s : State) : exec (.affdec sel (affCode f id)) s = .next (s.complete (BitVec.ofNat 32 id) []) := by
  have dec : wordOfByte (affDec f (affCode f id)) = BitVec.ofNat 32 id := by
    rw [wordOfByte_eq_ofNat, affDec_toNat, affQuotient_affCode f ((f.hasId_iff id).mp h).2]
  rw [exec, execAffdec, fam, ← dec]
  simp only [bind, Except.bind, affOk_affCode f h, if_true]
  rfl

/-! ### The active count -/

/-- The one bits of a mask of five, counted bit by bit (R9). -/
theorem popcount_five (m : BitVec 5) : popcount m = (m.getLsbD 0).toNat + (m.getLsbD 1).toNat + (m.getLsbD 2).toNat
    + (m.getLsbD 3).toNat + (m.getLsbD 4).toNat := by
  simp only [popcount, List.range, List.range.loop, List.countP_cons, List.countP_nil, Nat.zero_add, Bool.toNat,
    Bool.cond_eq_ite]
  omega

/-- At most five profiles are counted, so the count byte loses nothing (R100). -/
theorem cntEnc_toNat (m : BitVec 5) : (cntEnc m).toNat = 0x20 + popcount m := by
  have small : popcount m ≤ 5 := List.countP_le_length
  rw [cntEnc, countBias, BitVec.toNat_ofNat, Nat.mod_eq_of_lt (by omega), Nat.add_comm]

theorem cntDec_of_range {r : Byte} (low : 0x20 ≤ r.toNat) (high : r.toNat ≤ 0x25) : cntDec r = .ok (r.toNat - 0x20) :=
  if_neg (by omega)

theorem exec_cntenc (m : BitVec 5) (s : State) :
    exec (.cntenc m) s = .next (s.complete (BitVec.ofNat 32 (0x20 + popcount m)) []) := by
  rw [exec, execCntenc, answer, wordOfByte_eq_ofNat, cntEnc_toNat]

theorem exec_cntdec {r : Byte} (low : 0x20 ≤ r.toNat) (high : r.toNat ≤ 0x25) (s : State) :
    exec (.cntdec r) s = .next (s.complete (BitVec.ofNat 32 (r.toNat - 0x20)) []) := by
  rw [exec, execCntdec, cntDec_of_range low high]
  rfl

end Sys2Proof.Machine

namespace Sys2Proof.Proofs
open Sys2Proof.Machine Sys2Proof.Claims

/-- Settles O31: both commands succeed, with the byte of R88 and the pair of R63. -/
theorem dpiCommandsCompute : Obligations.DpiCommandsCompute := fun s =>
  ⟨fun a d legal => succeeds_of_exec (exec_dpienc a ⟨d, Nat.lt_succ_of_le legal⟩ s),
    fun _ legal => succeeds_of_exec (exec_dpidec legal s)⟩

/-- Settles O32: SEL selects the family (R65), and the id is one of it. -/
theorem affineCommandsCompute : Obligations.AffineCommandsCompute := by
  rintro s ⟨sel, f⟩ id listed low high
  have fam : familyOfSel sel = .ok f := by
    simp only [List.mem_cons, Prod.mk.injEq, List.not_mem_nil, or_false] at listed
    obtain ⟨rfl, rfl⟩ | ⟨rfl, rfl⟩ | ⟨rfl, rfl⟩ | ⟨rfl, rfl⟩ | ⟨rfl, rfl⟩ | ⟨rfl, rfl⟩ := listed <;> rfl
  have legal : f.hasId id = true := (f.hasId_iff id).mpr ⟨low, high⟩
  exact ⟨succeeds_of_exec (exec_affenc fam legal s), succeeds_of_exec (exec_affdec fam legal s)⟩

/-- Settles O33: the count of R100 is the sum of the five bits. -/
theorem countCommandsCompute : Obligations.CountCommandsCompute := by
  refine fun s => ⟨fun m => ?_, fun r low high => succeeds_of_exec (exec_cntdec low high s)⟩
  rw [← popcount_five]
  exact succeeds_of_exec (exec_cntenc m s)

/-- Settles O37: each way by the law of the byte packed or taken apart; only 0x00 and 0x80 have bits 6:0 zero. -/
theorem dpiPackerRoundTrip : Obligations.DpiPackerRoundTrip := by
  refine ⟨fun a d loc h => ⟨_, dpiEnc_val a ⟨d, h⟩, dpiDec_dpiByte a ⟨d, h⟩ loc⟩, fun r loc legal => ?_,
    bitsOf_6_0_eq_zero_iff⟩
  obtain ⟨d, index, dec⟩ := dpiDec_of_bits legal
  exact ⟨_, d, dec loc, by rw [dpiEnc_val, dpiByte_of_bits legal index]⟩

/-- Settles O38: the legal raw bytes are the codes of the ids, and the quotient of a code is its id. -/
theorem affineRoundTrip : Obligations.AffineRoundTrip := by
  intro f
  refine ⟨fun id low high => ?_, fun r ok => ?_, affOk_iff f, fun _ _ => affCode_injective f⟩
  · have legal : f.hasId id = true := (f.hasId_iff id).mpr ⟨low, high⟩
    exact ⟨_, affEnc_of_hasId legal, affOk_affCode f legal, by rw [affDec_toNat, affQuotient_affCode f high]⟩
  · obtain ⟨legal, code⟩ := affCode_affQuotient ok
    rw [affDec_toNat, affEnc_of_hasId legal, code]

/-- Settles O43: a codec command is `answer` of something made from its operands alone. -/
theorem codecAnswersIgnoreTheState : Obligations.CodecAnswersIgnoreTheState := by
  intro i s s' codec
  obtain ⟨r, answers⟩ := exec_eq_answer_of_isCodec codec
  obtain ⟨t, ends⟩ := answer_next s r
  obtain ⟨t', ends', resp⟩ := answer_responds s' ends
  exact ⟨t, t', (answers s).trans ends, (answers s').trans ends', resp.symm, keepsReport_answer ends,
    keepsReport_answer ends'⟩

end Sys2Proof.Proofs
end

section
/-! PROOFS. The LED codec and its inverse, slot by slot and whole (42_led_effect_codec.md R107 to R115). -/

namespace Sys2Proof.Machine
open Sys2Proof.Claims

/-! ### A shape with its three ids -/

/-- The mode table lists every shape, so a fact of its eight rows is one of every shape (R108). -/
theorem LedShape.mem_ledShapes (sh : LedShape) : sh ∈ ledShapes := by
  cases sh with
  | steady | breathe => decide
  | blinkEffect k | steadyEffect k => cases k <;> decide

@[simp] theorem LedShape.shape_build (sh : LedShape) (x1 x2 x3 : Byte) : (sh.build x1 x2 x3).shape = sh := by
  cases sh with
  | steady | breathe => rfl
  | blinkEffect k | steadyEffect k => cases k <;> rfl

@[simp] theorem LedShape.id3_build (sh : LedShape) (x1 x2 x3 : Byte) : (sh.build x1 x2 x3).id3 = x3 := by
  cases sh with
  | steady | breathe => rfl
  | blinkEffect k | steadyEffect k => cases k <;> rfl

/-- The id of slot 1 is the one given: where the slot is unused that is 0 (R112). -/
theorem LedShape.id1_build {sh : LedShape} {x1 : Byte} (h : slotHasId sh.row.fam1 x1 = true) (x2 x3 : Byte) :
    (sh.build x1 x2 x3).id1 = x1 := by
  cases sh with
  | steady | breathe => exact (eq_of_beq h).symm
  | blinkEffect | steadyEffect => rfl

theorem LedShape.id2_build {sh : LedShape} {x2 : Byte} (h : slotHasId sh.row.fam2 x2 = true) (x1 x3 : Byte) :
    (sh.build x1 x2 x3).id2 = x2 := by
  cases sh with
  | steady | breathe => exact (eq_of_beq h).symm
  | blinkEffect => rfl
  | steadyEffect k => rw [steadyEffect_fam2] at h; exact (eq_of_beq h).symm

theorem LedConfig.representable_iff (v : LedConfig) : v.representable = true ↔
    slotHasId v.shape.row.fam1 v.id1 = true ∧ slotHasId v.shape.row.fam2 v.id2 = true ∧
      v.shape.row.fam3.hasId v.id3.toNat = true := by
  rw [LedConfig.representable, Bool.and_eq_true, Bool.and_eq_true, and_assoc]

/-! ### One argument slot -/

theorem ledArgCode_toNat {fam : Option Family} {id : Byte} (h : slotHasId fam id = true) :
    (ledArgCode fam id).toNat = slotCode fam id := by
  cases fam with
  | none => rfl
  | some f => exact affCode_toNat f (slotHasId_some.mp h).2

/-- A slot decodes to an id exactly when the id is the family's and the byte, where it is read, is the id's code (R110,
R111). -/
theorem ledArg_eq_ok_iff (fam : Option Family) (slot : Nat) (arg id : Byte) :
    ledArg fam slot arg = .ok id ↔ slotHasId fam id = true ∧ (fam ≠ none → arg = ledArgCode fam id) := by
  cases fam with
  | none =>
    constructor
    · intro dec
      cases dec
      exact ⟨rfl, absurd rfl⟩
    · rintro ⟨unused, -⟩
      rw [eq_of_beq unused]
      rfl
  | some f =>
    constructor
    · intro dec
      simp only [ledArg] at dec
      split at dec
      · rename_i ok
        cases dec
        obtain ⟨legal, code⟩ := affCode_affQuotient ok
        rw [← affDec_toNat] at legal code
        exact ⟨legal, fun _ => code.symm⟩
      · cases dec
    · rintro ⟨legal, code⟩
      rw [code nofun]
      exact ledArg_ledArgCode (some f) slot id legal

/-- An unused slot is not read (R111). -/
theorem ledArg_congr {fam : Option Family} {arg arg' : Byte} (slot : Nat) (h : fam.isSome = true → arg = arg') :
    ledArg fam slot arg = ledArg fam slot arg' := by
  cases fam with
  | none => rfl
  | some f => rw [h rfl]

/-- Encoded again, a decoded slot is as it was where it is read, and 0 where it is not (R114). -/
theorem ledArgCode_of_read {fam : Option Family} {arg id : Byte} (h : fam ≠ none → arg = ledArgCode fam id) :
    ledArgCode fam id = if fam = none then 0 else arg := by
  cases fam with
  | none => rfl
  | some f => rw [if_neg nofun, h nofun]

theorem slotDecodes_ledArgCode {fam : Option Family} {id : Byte} (h : slotHasId fam id = true) :
    slotDecodes fam (ledArgCode fam id) := by
  rintro f rfl
  exact affOk_affCode f h

theorem ledArgCode_unused {fam : Option Family} (h : fam = none) (id : Byte) : ledArgCode fam id = 0 := by
  rw [h]
  rfl

/-! ### The whole quad -/

theorem LedShape.mode_mem (sh : LedShape) :
    sh.row.mode.toNat ∈ [0x28, 0x22, 0x42, 0x44, 0x48, 0x82, 0x84, 0x88] :=
  have table : ∀ sh ∈ ledShapes, sh.row.mode.toNat ∈ [0x28, 0x22, 0x42, 0x44, 0x48, 0x82, 0x84, 0x88] := by decide
  table sh sh.mem_ledShapes

theorem ledDec_of_mode {sh : LedShape} {q : LedQuad} (h : sh.row.mode = q.mode) :
    ledDec q = ledDecAs sh q.arg1 q.arg2 q.arg3 := by
  rw [ledDec, ← h, ledShape?_mode]

theorem ledDecAs_of_args {sh : LedShape} {a1 a2 a3 x1 x2 x3 : Byte} (h1 : ledArg sh.row.fam1 1 a1 = .ok x1)
    (h2 : ledArg sh.row.fam2 2 a2 = .ok x2) (h3 : ledArg (some sh.row.fam3) 3 a3 = .ok x3) :
    ledDecAs sh a1 a2 a3 = .ok (sh.build x1 x2 x3) := by
  rw [ledDecAs, h1, h2, h3]
  rfl

/-- What `led_dec` of a row gives has that row's shape, and encodes to the bytes that were read (R110, R112). -/
theorem encodes_of_ledDecAs {sh : LedShape} {a1 a2 a3 : Byte} {v : LedConfig} (h : ledDecAs sh a1 a2 a3 = .ok v) :
    v.shape = sh ∧ (sh.row.fam1 ≠ none → a1 = (ledEnc v).arg1) ∧ (sh.row.fam2 ≠ none → a2 = (ledEnc v).arg2) ∧
      a3 = (ledEnc v).arg3 := by
  obtain ⟨x1, dec1, h⟩ := bind_ok h
  obtain ⟨x2, dec2, h⟩ := bind_ok h
  obtain ⟨x3, dec3, h⟩ := bind_ok h
  cases h
  obtain ⟨slot1, read1⟩ := (ledArg_eq_ok_iff _ _ _ _).mp dec1
  obtain ⟨slot2, read2⟩ := (ledArg_eq_ok_iff _ _ _ _).mp dec2
  obtain ⟨-, read3⟩ := (ledArg_eq_ok_iff _ _ _ _).mp dec3
  simp only [ledEnc, LedShape.shape_build, LedShape.id1_build slot1, LedShape.id2_build slot2, LedShape.id3_build,
    true_and]
  exact ⟨read1, read2, read3 nofun⟩

end Sys2Proof.Machine

namespace Sys2Proof.Proofs
open Sys2Proof.Machine Sys2Proof.Claims

/-- Settles O39: one way is `ledDec_ledEnc`; the other is that of each slot. -/
theorem ledCodecRoundTrip : Obligations.LedCodecRoundTrip := by
  refine ⟨ledDec_ledEnc, fun q v sh dec mode => ?_⟩
  rw [ledDec_of_mode mode] at dec
  obtain ⟨rfl, read1, read2, read3⟩ := encodes_of_ledDecAs dec
  have arg1 : (ledEnc v).arg1 = if v.shape.row.fam1 = none then 0 else q.arg1 := ledArgCode_of_read read1
  have arg2 : (ledEnc v).arg2 = if v.shape.row.fam2 = none then 0 else q.arg2 := ledArgCode_of_read read2
  refine ⟨mode, read3.symm, arg1, arg2, ?_⟩
  have whole : ledEnc v = ⟨q.mode, (ledEnc v).arg1, (ledEnc v).arg2, q.arg3⟩ := by rw [← mode, read3]; rfl
  rw [whole, arg1, arg2]
  obtain ⟨m, a1, a2, a3⟩ := q
  simp only [LedQuad.mk.injEq, true_and, and_true, ite_eq_right_iff, eq_comm (a := (0 : Byte))]

/-- Settles O40: the row is that of the configuration's shape, and each slot holds the code of its id. -/
theorem ledEncodingIsLegal : Obligations.LedEncodingIsLegal := by
  intro v ids
  obtain ⟨slot1, slot2, slot3⟩ := v.representable_iff.mp ids
  exact ⟨v.shape.mode_mem, v.shape, rfl, slotDecodes_ledArgCode slot1, slotDecodes_ledArgCode slot2,
    affOk_affCode _ slot3, fun unused => ledArgCode_unused unused _, fun unused => ledArgCode_unused unused _⟩

/-- Settles O42: a row's first two slots decode alike, used or not, and the third is read in every row. -/
theorem unusedSlotsAreNotRead : Obligations.UnusedSlotsAreNotRead := by
  refine ⟨fun sh a1 a2 a3 b1 b2 same1 same2 => ?_, by decide⟩
  rw [ledDec_of_mode (sh := sh) rfl, ledDec_of_mode (sh := sh) rfl, ledDecAs, ledDecAs, ledArg_congr 1 same1,
    ledArg_congr 2 same2]

end Sys2Proof.Proofs
end

section
/-! PROOFS. The LED descriptor (30_encoding.md R61, 42_led_effect_codec.md R113): a valid one is the fields of a
representable configuration. -/

namespace Sys2Proof.Machine
open Sys2Proof.Claims

/-! ### V and K -/

/-- V and K say which shape it is (R61). -/
theorem shapeOfCodes_codes (sh : LedShape) : shapeOfCodes sh.variant sh.effectCode = sh :=
  have table : ∀ sh ∈ ledShapes, shapeOfCodes sh.variant sh.effectCode = sh := by decide
  table sh sh.mem_ledShapes

theorem effectKindOfCode_code {k p3 : Nat} (h : effectIdInRange k p3 = true) : (effectKindOfCode k).code = k := by
  match k with
  | 0 | 1 | 2 => rfl
  | n + 3 => cases h

/-- The fields R113 allows have the V and K of a shape. -/
theorem exists_codes_of_variantFieldsOk {v k p1 p2 p3 : Nat} (h : variantFieldsOk v k p1 p2 p3 = true) :
    ∃ sh : LedShape, v = sh.variant ∧ k = sh.effectCode := by
  match v with
  | 0 => exact ⟨.steady, rfl, by simp_all [variantFieldsOk, LedShape.effectCode]⟩
  | 1 => exact ⟨.breathe, rfl, by simp_all [variantFieldsOk, LedShape.effectCode]⟩
  | 2 => exact ⟨.blinkEffect (effectKindOfCode k), rfl, (effectKindOfCode_code (Bool.and_eq_true_iff.mp h).2).symm⟩
  | 3 => exact ⟨.steadyEffect (effectKindOfCode k), rfl, (effectKindOfCode_code (Bool.and_eq_true_iff.mp h).2).symm⟩
  | n + 4 => cases h

/-- "P3 in range of K" of R113 is "P3 is an id of the effect's family" (R108). -/
theorem effectIdInRange_code (k : EffectKind) (p3 : Nat) :
    effectIdInRange k.code p3 = (LedShape.blinkEffect k).row.fam3.hasId p3 ∧
      effectIdInRange k.code p3 = (LedShape.steadyEffect k).row.fam3.hasId p3 := by
  cases k <;> exact ⟨rfl, rfl⟩

/-- Under the V and K of a shape, R113 asks of P1, P2 and P3 that each is an id of its slot's family, or 0 in an unused
slot. -/
theorem variantFieldsOk_iff (sh : LedShape) (x1 x2 x3 : Byte) :
    variantFieldsOk sh.variant sh.effectCode x1.toNat x2.toNat x3.toNat = true ↔
      slotHasId sh.row.fam1 x1 = true ∧ slotHasId sh.row.fam2 x2 = true ∧ sh.row.fam3.hasId x3.toNat = true := by
  cases sh with
  | steady | breathe =>
    simp [variantFieldsOk, LedShape.variant, LedShape.effectCode, LedShape.row, slotHasId_none, Family.hasId_iff,
      Family.count, and_assoc]
  | blinkEffect k =>
    obtain ⟨effect, -⟩ := effectIdInRange_code k x3.toNat
    simp [variantFieldsOk, LedShape.variant, LedShape.effectCode, effect, slotHasId_some, Family.count, and_assoc]
  | steadyEffect k =>
    obtain ⟨-, effect⟩ := effectIdInRange_code k x3.toNat
    simp [variantFieldsOk, LedShape.variant, LedShape.effectCode, effect, slotHasId_some, slotHasId_none, Family.count,
      and_assoc]

theorem LedShape.codes_lt (sh : LedShape) : sh.variant < 4 ∧ sh.effectCode < 3 :=
  have table : ∀ sh ∈ ledShapes, sh.variant < 4 ∧ sh.effectCode < 3 := by decide
  table sh sh.mem_ledShapes

/-! ### The fields of a descriptor -/

/-- The first byte of a descriptor, as a number (R61). -/
theorem codeByte_toNat (sh : LedShape) :
    (BitVec.ofNat 2 sh.variant ++ BitVec.ofNat 2 sh.effectCode ++ (0 : BitVec 4)).toNat =
      sh.variant * 64 + sh.effectCode * 16 :=
  have table : ∀ sh ∈ ledShapes, (BitVec.ofNat 2 sh.variant ++ BitVec.ofNat 2 sh.effectCode ++ (0 : BitVec 4)).toNat =
    sh.variant * 64 + sh.effectCode * 16 := by decide
  table sh sh.mem_ledShapes

theorem LedConfig.descriptor_toNat (v : LedConfig) :
    v.descriptor.toNat = descriptorNumber v.shape v.id1 v.id2 v.id3 := by
  simp only [LedConfig.descriptor, toNat_append_byte, codeByte_toNat, descriptorNumber]
  omega

/-- A descriptor is that of a configuration exactly when each of its fields is (R61). -/
theorem LedConfig.descriptor_eq_iff (v : LedConfig) (d : Word) : v.descriptor = d ↔
    (bitsOf d 31 30 = v.shape.variant ∧ bitsOf d 29 28 = v.shape.effectCode ∧ bitsOf d 27 24 = 0) ∧
      d.extractLsb' 16 8 = v.id1 ∧ d.extractLsb' 8 8 = v.id2 ∧ d.extractLsb' 0 8 = v.id3 := by
  obtain ⟨variant, effect⟩ := v.shape.codes_lt
  have id1 := v.id1.isLt
  have id2 := v.id2.isLt
  have id3 := v.id3.isLt
  have fits := d.isLt
  simp only [← BitVec.toNat_inj, v.descriptor_toNat, descriptorNumber, bitsOf, BitVec.extractLsb'_toNat,
    Nat.shiftRight_eq_div_pow, Nat.reducePow, Nat.reduceSub, Nat.reduceAdd] at *
  omega

/-! ### Valid descriptors -/

/-- The configuration a valid descriptor spells has that descriptor (R113). -/
theorem descriptor_ledOfDescriptor {d : Word} (h : descOk d = true) : (ledOfDescriptor d).descriptor = d := by
  simp only [descOk, Bool.and_eq_true, beq_iff_eq] at h
  obtain ⟨⟨reserved, -⟩, fields⟩ := h
  obtain ⟨sh, variant, effect⟩ := exists_codes_of_variantFieldsOk fields
  rw [variant, effect] at fields
  obtain ⟨slot1, slot2, -⟩ :=
    (variantFieldsOk_iff sh (d.extractLsb' 16 8) (d.extractLsb' 8 8) (d.extractLsb' 0 8)).mp fields
  rw [LedConfig.descriptor_eq_iff, ledOfDescriptor, variant, effect, shapeOfCodes_codes, LedShape.shape_build,
    LedShape.id1_build slot1, LedShape.id2_build slot2, LedShape.id3_build]
  exact ⟨⟨rfl, rfl, reserved⟩, rfl, rfl, rfl⟩

/-- The descriptor of a representable configuration is valid and spells it (R113). -/
theorem ledOfDescriptor_descriptor {v : LedConfig} (ids : v.representable = true) :
    descOk v.descriptor = true ∧ ledOfDescriptor v.descriptor = v := by
  obtain ⟨⟨variant, effect, reserved⟩, p1, p2, p3⟩ := (v.descriptor_eq_iff _).mp rfl
  constructor
  · have fields := (variantFieldsOk_iff v.shape v.id1 v.id2 v.id3).mpr (v.representable_iff.mp ids)
    rw [← variant, ← effect, ← p1, ← p2, ← p3] at fields
    have effect3 : bitsOf v.descriptor 29 28 ≠ 3 := effect ▸ v.shape.codes_lt.2.ne
    simp only [descOk, Bool.and_eq_true, beq_iff_eq, bne_iff_ne]
    exact ⟨⟨reserved, effect3⟩, fields⟩
  · rw [ledOfDescriptor, variant, effect, p1, p2, p3, shapeOfCodes_codes, v.build_shape]

end Sys2Proof.Machine

namespace Sys2Proof.Proofs
open Sys2Proof.Machine

/-- Settles O41: R113's clauses say that each field is in its slot's family, and the fields are the whole word. -/
theorem descriptorsSpellConfigurations : Obligations.DescriptorsSpellConfigurations :=
  ⟨fun _ ok => ⟨representable_ledOfDescriptor ok, descriptor_ledOfDescriptor ok⟩, fun _ => ledOfDescriptor_descriptor⟩

end Sys2Proof.Proofs
end

section
/-! PROOFS. LEDENC, LEDDEC and the eight LED rows (42_led_effect_codec.md R108 to R110, R116, R117; a row on its own:
log 6), and what leaves the LED slot alone (R120). -/

namespace Sys2Proof.Machine
open Sys2Proof.Claims

/-! ### LEDDEC and the rows -/

theorem ledShape?_unknown {m : Byte} (h : ∀ sh : LedShape, sh.row.mode ≠ m) : ledShape? m = none :=
  List.find?_eq_none.mpr fun sh _ => by simpa using h sh

theorem exec_ledInstr (sh : LedShape) (a1 a2 a3 : Byte) (s : State) :
    exec (ledInstr sh a1 a2 a3) s = interpretLed sh a1 a2 a3 s := by
  cases sh with
  | steady | breathe => rfl
  | blinkEffect k | steadyEffect k => cases k <;> rfl

theorem exec_leddec_of_mode {q : Word} {sh : LedShape} (h : ledShape? (q.extractLsb' 24 8) = some sh) (s : State) :
    exec (.leddec q) s = interpretLed sh (q.extractLsb' 16 8) (q.extractLsb' 8 8) (q.extractLsb' 0 8) s := by
  rw [exec, execLeddec, quadOfWord, ledDec, h, interpretLed]

theorem exec_leddec_packQuad (sh : LedShape) (a1 a2 a3 : Byte) (s : State) :
    exec (.leddec (packQuad sh.row.mode a1 a2 a3)) s = interpretLed sh a1 a2 a3 s := by
  rw [exec_leddec_of_mode (sh := sh) (by rw [quadOfBytes_mode, ledShape?_mode]), quadOfBytes_arg1, quadOfBytes_arg2,
    quadOfBytes_arg3]

/-- A mode byte that no row has is reported before any argument is read (R110). -/
theorem exec_leddec_unknown {q : Word} (h : ledShape? (q.extractLsb' 24 8) = none) (s : State) :
    exec (.leddec q) s = .next (s.raise (.badLedMode (q.extractLsb' 24 8))) := by
  rw [exec, execLeddec, quadOfWord, ledDec, h]
  rfl

/-- The decoder of quads knows the mode bytes of the mode table, and no other (R70, R108). -/
theorem ledOpcodes_find (m : Byte) :
    (ledOpcodes.find? fun e => e.1 == m) = (ledShape? m).map fun sh => (sh.row.mode, ledInstr sh) := by
  rw [show ledOpcodes = ledShapes.map fun sh => (sh.row.mode, ledInstr sh) from rfl, List.find?_map]
  rfl

theorem runPresented_quad (q : Word) (s : State) : runPresented (.quad q) s = exec (.leddec q) s := by
  cases found : ledShape? (q.extractLsb' 24 8) with
  | none =>
    have dec : decode (.quad q) = .error (.unknownLedMode (q.extractLsb' 24 8)) := by
      rw [decode, decodeQuad, ledOpcodes_find, found]
      rfl
    rw [runPresented_error dec, exec_leddec_unknown found]
    rfl
  | some sh =>
    have dec : decode (.quad q) = .ok (ledInstr sh (q.extractLsb' 16 8) (q.extractLsb' 8 8) (q.extractLsb' 0 8)) := by
      rw [decode, decodeQuad, ledOpcodes_find, found]
      rfl
    rw [runPresented, dec, exec_leddec_of_mode found]
    exact exec_ledInstr _ _ _ _ s

/-! ### The checks in their order -/

theorem ledArg_bad {f : Family} {arg : Byte} (slot : Nat) (h : affOk f arg = false) :
    ledArg (some f) slot arg = .error (.badLedArg slot arg) := by
  rw [ledArg, h]
  rfl

theorem ledArg_of_slotDecodes {fam : Option Family} {arg : Byte} (slot : Nat) (h : slotDecodes fam arg) :
    ∃ id, ledArg fam slot arg = .ok id := by
  cases fam with
  | none => exact ⟨0, rfl⟩
  | some f => exact ⟨affDec f arg, if_pos (h f rfl)⟩

/-- The detail of a bad argument is its report offset above its byte (R110). -/
theorem badLedArg_raises {r : Result} {s : State} {slot : Nat} {arg : Byte}
    (h : r = .next (s.raise (.badLedArg slot arg))) (argument : slot ≤ 3) :
    ∃ t, r = .next t ∧ Raises s t 1 0x04 ((93 + slot) * 256 + arg.toNat) := by
  have fits := arg.isLt
  have raised := raises_raise s (.badLedArg slot arg)
  rw [Exc.badLedArg, detailOf_toNat (by omega)] at raised
  exact ⟨_, h, raised⟩

theorem badLedMode_raises {r : Result} {s : State} {m : Byte} (h : r = .next (s.raise (.badLedMode m))) :
    ∃ t, r = .next t ∧ Raises s t 1 0x03 (93 * 256 + m.toNat) := by
  have fits := m.isLt
  have raised := raises_raise s (.badLedMode m)
  rw [Exc.badLedMode, detailOf_toNat (by omega)] at raised
  exact ⟨_, h, raised⟩

theorem interpretLed_error {sh : LedShape} {a1 a2 a3 : Byte} {e : Exc} (h : ledDecAs sh a1 a2 a3 = .error e)
    (s : State) : interpretLed sh a1 a2 a3 s = .next (s.raise e) := by
  rw [interpretLed, h]
  rfl

/-! ### The answers -/

/-- An argument byte that holds its id's raw value decodes to the id; an unused slot holds any byte (R110, R111). -/
theorem ledArg_of_slotHolds {fam : Option Family} {id arg : Byte} (slot : Nat) (ids : slotHasId fam id = true)
    (holds : slotHolds fam id arg) : ledArg fam slot arg = .ok id :=
  (ledArg_eq_ok_iff fam slot arg id).mpr
    ⟨ids, fun used => BitVec.eq_of_toNat_eq (by rw [holds (Option.isSome_iff_ne_none.mpr used), ledArgCode_toNat ids])⟩

theorem eq_ofNat_of_toNat {w : Word} {n : Nat} (h : w.toNat = n) : w = BitVec.ofNat 32 n := by
  rw [← h, BitVec.ofNat_toNat, BitVec.setWidth_eq]

section
variable {sh : LedShape} {x1 x2 x3 : Byte} (slot1 : slotHasId sh.row.fam1 x1 = true)
  (slot2 : slotHasId sh.row.fam2 x2 = true) (slot3 : sh.row.fam3.hasId x3.toNat = true)
include slot1 slot2

/-- The descriptor of a shape with its ids, as a number (R61). -/
theorem descriptor_build : (sh.build x1 x2 x3).descriptor = BitVec.ofNat 32 (descriptorNumber sh x1 x2 x3) := by
  refine eq_ofNat_of_toNat ?_
  rw [LedConfig.descriptor_toNat, LedShape.shape_build, LedShape.id1_build slot1, LedShape.id2_build slot2,
    LedShape.id3_build]

include slot3

/-- The raw quad of a shape with its ids, as a number: the mode byte and the codes (R62, R112). -/
theorem word_ledEnc_build : (ledEnc (sh.build x1 x2 x3)).word = BitVec.ofNat 32 (sh.row.mode.toNat * 2 ^ 24
    + slotCode sh.row.fam1 x1 * 2 ^ 16 + slotCode sh.row.fam2 x2 * 2 ^ 8 + slotCode (some sh.row.fam3) x3) := by
  have code3 : (affCode sh.row.fam3 x3.toNat).toNat = slotCode (some sh.row.fam3) x3 :=
    ledArgCode_toNat (fam := some _) slot3
  refine eq_ofNat_of_toNat ?_
  simp only [LedQuad.word_toNat, ledEnc, LedShape.shape_build, LedShape.id1_build slot1, LedShape.id2_build slot2,
    LedShape.id3_build, ledArgCode_toNat slot1, ledArgCode_toNat slot2, code3]
  omega

/-- LEDENC of that descriptor answers that quad (R116). -/
theorem exec_ledenc_build (s : State) : exec (.ledenc (BitVec.ofNat 32 (descriptorNumber sh x1 x2 x3))) s =
    .next (s.complete (BitVec.ofNat 32 (sh.row.mode.toNat * 2 ^ 24 + slotCode sh.row.fam1 x1 * 2 ^ 16
      + slotCode sh.row.fam2 x2 * 2 ^ 8 + slotCode (some sh.row.fam3) x3)) []) := by
  obtain ⟨valid, spells⟩ := ledOfDescriptor_descriptor (LedShape.representable_build slot1 slot2 slot3)
  rw [← descriptor_build slot1 slot2, ← word_ledEnc_build slot1 slot2 slot3, exec, execLedenc, ledOperand, if_pos valid,
    spells]
  rfl

/-- The row of a shape, on bytes that hold the ids' codes, answers the descriptor (R110, R117). -/
theorem interpretLed_codes {a1 a2 a3 : Byte} (holds1 : slotHolds sh.row.fam1 x1 a1)
    (holds2 : slotHolds sh.row.fam2 x2 a2) (holds3 : slotHolds (some sh.row.fam3) x3 a3) (s : State) :
    interpretLed sh a1 a2 a3 s = .next (s.complete (BitVec.ofNat 32 (descriptorNumber sh x1 x2 x3)) []) := by
  rw [interpretLed, ledDecAs_of_args (ledArg_of_slotHolds 1 slot1 holds1) (ledArg_of_slotHolds 2 slot2 holds2)
    (ledArg_of_slotHolds 3 slot3 holds3), ← descriptor_build slot1 slot2]
  rfl

end

/-! ### What leaves the LED slot alone -/

/-- Every write but those of SETLED, LOAD and LOADDEF leaves the LED slot and its four bytes alone (R120, R131). -/
theorem Writes.led_kept {s u : State} {i : Instr} (h : Writes s i u) (noSetled : ∀ d, i ≠ .setled d)
    (noLoad : i ≠ .load) (noLoaddef : i ≠ .loaddef) :
    u.cache.led = s.cache.led ∧ ∀ o, 93 ≤ o → o ≤ 96 → u.rpt.read o = s.rpt.read o := by
  cases h with
  | nothing => exact ⟨rfl, fun _ _ _ => rfl⟩
  | loaddef => exact absurd rfl noLoaddef
  | load => exact absurd rfl noLoad
  | setdpi i d =>
    exact ⟨rfl, fun o _ _ => Memory.read_memWrite_outside _ _ _ _ _ (by simp only [dpiOffset]; omega)⟩
  | setact i a =>
    refine ⟨rfl, fun o _ _ => ?_⟩
    rw [State.recount_rpt, Memory.read_memWrite_outside _ _ _ _ _ (by omega)]
    exact Memory.read_memWrite_outside _ _ _ _ _ (by simp only [dpiOffset]; omega)
  | setrgb i c =>
    exact ⟨rfl, fun o _ _ => Memory.read_memWrite_outside _ _ _ _ _ (by simp only [rgbOffset]; omega)⟩
  | setled d => exact absurd rfl (noSetled d)

end Sys2Proof.Machine

namespace Sys2Proof.Proofs
open Sys2Proof.Machine Sys2Proof.Claims

/-- Settles O9: the mode before the arguments, and each argument once those before it have decoded. -/
theorem leddecChecksInOrder : Obligations.LeddecChecksInOrder := by
  intro m a1 a2 a3 s
  refine ⟨fun unknown => ?mode, ?args⟩
  case mode =>
    refine badLedMode_raises ?_
    rw [exec_leddec_unknown (by rw [quadOfBytes_mode]; exact ledShape?_unknown unknown), quadOfBytes_mode]
  case args =>
    rintro sh rfl
    rw [exec_leddec_packQuad]
    refine ⟨fun f fam bad => ?arg1, fun f ok1 fam bad => ?arg2, fun ok1 ok2 bad => ?arg3⟩
    case arg1 =>
      refine badLedArg_raises (slot := 1) (interpretLed_error ?_ s) (by decide)
      rw [ledDecAs, fam, ledArg_bad 1 bad]
      rfl
    case arg2 =>
      obtain ⟨x1, dec1⟩ := ledArg_of_slotDecodes 1 ok1
      refine badLedArg_raises (slot := 2) (interpretLed_error ?_ s) (by decide)
      rw [ledDecAs, dec1, fam, ledArg_bad 2 bad]
      rfl
    case arg3 =>
      obtain ⟨x1, dec1⟩ := ledArg_of_slotDecodes 1 ok1
      obtain ⟨x2, dec2⟩ := ledArg_of_slotDecodes 2 ok2
      refine badLedArg_raises (slot := 3) (interpretLed_error ?_ s) (by decide)
      rw [ledDecAs, dec1, dec2, ledArg_bad 3 bad]
      rfl

/-- Settles O29: an instruction ends on what it wrote, and only three write the LED slot. -/
theorem ledChangesOnlyBySetledAndLoads : Obligations.LedChangesOnlyBySetledAndLoads := by
  intro i s t noSetled noLoad noLoaddef h
  cases exec_ends h with
  | raised e => exact ⟨rfl, fun _ _ _ => rfl⟩
  | succeeded u d w wr => exact wr.led_kept noSetled noLoad noLoaddef
  | statusRead reg d => exact ⟨rfl, fun _ _ _ => rfl⟩

/-- Settles O34: both commands answer from the one configuration of the shape and its ids. -/
theorem ledCommandsCompute : Obligations.LedCommandsCompute := by
  intro s sh x1 x2 x3 a1 a2 a3 slot1 slot2 slot3 holds1 holds2 holds3
  refine ⟨succeeds_of_exec (exec_ledenc_build slot1 slot2 slot3 s), succeeds_of_exec ?_⟩
  rw [exec_leddec_packQuad, interpretLed_codes slot1 slot2 slot3 holds1 holds2 holds3]

/-- Settles O35: a row is the interpreter on its own shape. -/
theorem ledRowsCompute : Obligations.LedRowsCompute := by
  intro s sh x1 x2 x3 a1 a2 a3 slot1 slot2 slot3 holds1 holds2 holds3
  refine succeeds_of_exec ?_
  rw [exec_ledInstr, interpretLed_codes slot1 slot2 slot3 holds1 holds2 holds3]

/-- Settles O36: the rows of the decoder are those of the mode table, and each is the interpreter on its shape. -/
theorem presentedQuadIsLeddec : Obligations.PresentedQuadIsLeddec :=
  ⟨runPresented_quad, fun sh a1 a2 a3 s => by rw [exec_ledInstr, exec_leddec_packQuad]⟩

end Sys2Proof.Proofs
end

section
/-! PROOFS. Construction and lockstep (43_configuration_model.md R122, R123, R133, R134): LOAD of a legal list stores it
whole with its decode, C stays the decode of RPT in every state a run reaches, and RPT loads back. -/

namespace Sys2Proof.Machine
open Sys2Proof.Claims

/-! ### Lockstep and reachable states -/

theorem Reachable.inv {s : State} (h : Reachable s) : Inv s := by
  induction h with
  | reset => exact reset_inv
  | step _ run ih => exact Proofs.stepKeepsTheInvariant _ _ ih run
  | host inputs _ ih => exact ⟨ih.report, ih.lockstep, ih.record, ih.response⟩

/-- Lockstep says of RPT that it is a whole report, and of C that it is the decode of it (R29). -/
theorem lockstep_iff_decodeAll (s : State) :
    Lockstep s ↔ ∃ B, s.rpt = Memory.ofReport B ∧ decodeAll B = .ok s.cache := by
  simp only [Lockstep, Option.map_eq_some_iff, Memory.toReport?_eq_some]

theorem synced_of_lockstep {s : State} (h : Lockstep s) : Synced s := by
  obtain ⟨B, rpt, dec⟩ := (lockstep_iff_decodeAll s).mp h
  exact ⟨rpt ▸ Memory.ofReport_wf B, rpt ▸ (spells_ofReport_iff B s.cache).mpr dec⟩

/-- A command that answers with RESP_CODE 0, RDSTAT excepted, ended on what it wrote (R150, R154). -/
theorem Ends.written {s t : State} {i : Instr} {r : Response} (h : Ends s i t) (other : ∀ reg, i ≠ .rdstat reg)
    (resp : t.resp = some r) (success : r.code = 0) : ∃ u d w, Writes s i u ∧ t = u.complete d w := by
  cases h with
  | raised e => cases resp; exact absurd success (code_ne_zero e.kind)
  | succeeded u d w wr => exact ⟨u, d, w, wr, rfl⟩
  | statusRead reg d isRdstat => exact absurd isRdstat (other reg)

/-- LOAD and LOADDEF put RPT and C in step, whatever they were before (R133). -/
theorem Writes.synced_of_construct {s u : State} {i : Instr} (h : Writes s i u) (construct : i = .load ∨ i = .loaddef) :
    Synced u := by
  cases h with
  | loaddef => exact synced_construct Config.defaultReport.decodeAll_bytes s
  | load B c ok => exact synced_construct (loadCheck_ok ok).2 s
  | nothing i reads => obtain rfl | rfl := construct <;> cases reads
  | setdpi | setact | setrgb | setled => simp at construct

/-! ### LOAD of a legal list -/

theorem reportOfBytes_toList (B : Report) : reportOfBytes B.toList = .ok B := dif_pos B.length_toList

theorem loadCheck_toList {B : Report} {c : Cache} (dec : decodeAll B = .ok c) : loadCheck B.toList = .ok (B, c) := by
  rw [loadCheck, reportOfBytes_toList]
  simp only [bind, Except.bind, dec]
  rfl

theorem exec_load {s : State} {B : Report} {c : Cache} (win : s.win = B.toList) (dec : decodeAll B = .ok c) :
    exec .load s = .next ((s.construct B c).complete 0 []) := by
  rw [exec, execLoad, win, loadCheck_toList dec]
  rfl

/-- Ending with success on what was written: the response, the record, and nothing else but the writes (R151). -/
theorem Writes.succeeds {s u : State} {i : Instr} (h : Writes s i u) (d : Word) (w : List Byte) :
    Succeeds s (u.complete d w) d w where
  resp := rfl
  lastCode := lastCode_statusOnSuccess u.status
  kept b high := by rw [State.complete_status, statusOnSuccess_high _ _ high, h.status]
  lastInfo := rfl
  ports := ⟨h.samePorts.pending, h.samePorts.win, h.samePorts.issued⟩

/-- A report with legal DPI and LED bytes decodes to what its bytes spell (R123). -/
theorem decodeAll_of_legal {B : Report} {v : LedConfig} (dpi : dpiBytesOk B) (led : ledDec (quadOf B) = .ok v) :
    ∃ c, decodeAll B = .ok c ∧ CacheOf B c v := by
  choose d index dec using fun i => dpiDec_of_bits (dpi i)
  refine ⟨⟨Vector.ofFn fun i => ⟨!(dpiByteAt B i).getLsbD 7, d i, rgbOf B i⟩, v⟩,
    (decodeAll_eq_ok_iff B _).mpr ⟨fun i => ?_, fun i => ?_, led⟩, ⟨fun i => ?_, fun i => ?_, fun i => ?_, rfl⟩⟩
  · simp only [Fin.getElem_fin, Vector.getElem_ofFn, Fin.eta]
    exact dec i (dpiOffset i)
  · simp
  · simp
  · have nonzero := dpi i
    have kept := index i
    simp only [Fin.getElem_fin, Vector.getElem_ofFn, Fin.eta]
    omega
  · simp only [Fin.getElem_fin, Vector.getElem_ofFn, rgbOf, toNat_append_byte, Nat.add_mul, Nat.mul_assoc]
    rfl

end Sys2Proof.Machine

namespace Sys2Proof.Proofs
open Sys2Proof.Machine Sys2Proof.Claims

/-- Settles O54: in step is part of the invariant, every write of the block keeps it, and a construction needs no more
than its own success. -/
theorem cacheIsDecodeOfReport : Obligations.CacheIsDecodeOfReport := by
  refine ⟨fun s reached => reached.inv.lockstep, fun i s t pre h => ?_, fun i s t construct h success => ?_⟩
  · exact ((exec_ends h).synced (synced_of_lockstep pre)).lockstep
  · obtain ⟨r, resp, code⟩ := success
    have other (reg : Nat) : i ≠ .rdstat reg := by obtain rfl | rfl := construct <;> nofun
    obtain ⟨u, d, w, wr, rfl⟩ := (exec_ends h).written other resp code
    exact (wr.synced_of_construct construct).lockstep

/-- Settles O55: RPT is a stored report, RDRAW drives its bytes, and C is their decode. -/
theorem reportLoadsBack : Obligations.ReportLoadsBack := by
  intro s reached
  obtain ⟨B, rpt, dec⟩ := (lockstep_iff_decodeAll s).mp reached.inv.lockstep
  refine ⟨_, _, exec_rdraw reached.inv.report, rfl, fun s' win => ?_⟩
  rw [rpt, Memory.ofReport_bytes] at win
  exact ⟨_, exec_load win dec, rfl, rpt.symm, rfl⟩

/-- Settles O11: a legal report decodes, so LOAD stores it and what it spells. -/
theorem loadStoresTheReport : Obligations.LoadStoresTheReport := by
  intro s B v win dpi led
  obtain ⟨c, dec, spelled⟩ := decodeAll_of_legal dpi led
  refine ⟨_, exec_load win dec, (Writes.load B c (win ▸ loadCheck_toList dec)).succeeds 0 [],
    fun o inside => Memory.read_ofReport B o inside, fun o outside => ?_, spelled⟩
  rw [← Option.not_isSome_iff_eq_none]
  exact fun listed => Nat.not_lt.mpr outside ((Memory.read_isSome_iff _ (Memory.ofReport_wf B) o).mp listed)

end Sys2Proof.Proofs
end

section
/-! PROOFS. Reading C (43_configuration_model.md R124, R125): GETPROF and GETLED answer the descriptors of
30_encoding.md R60 and R61. -/

namespace Sys2Proof.Machine

theorem exec_getprof (s : State) (i : Fin 5) :
    exec (.getprof i.val) s = .next (s.complete (profileDescriptor s.cache.prof[i]) []) := by
  rw [exec, execGetprof, profileSlot_val]
  rfl

/-- A word put below another: the other moves up by its width (R9). -/
theorem toNat_append_word {n m : Nat} (a : BitVec n) (b : BitVec m) : (a ++ b).toNat = a.toNat * 2 ^ m + b.toNat := by
  rw [BitVec.toNat_append, ← Nat.shiftLeft_add_eq_or_of_lt b.isLt, Nat.shiftLeft_eq]

/-- The profile descriptor as a number: active in bit 31, dpi in [30:24], rgb in [23:0] (R60). -/
theorem profileDescriptor_toNat (p : Profile) :
    (profileDescriptor p).toNat = p.active.toNat * 2 ^ 31 + p.dpi.val * 2 ^ 24 + p.rgb.toNat := by
  have index : (BitVec.ofNat 7 p.dpi.val).toNat = p.dpi.val := Nat.mod_eq_of_lt (by omega)
  rw [profileDescriptor, toNat_append_word, toNat_append_word, BitVec.toNat_ofBool, index]
  omega

theorem exec_getled (s : State) : exec .getled s = .next (s.complete s.cache.led.descriptor []) := rfl

/-- What `led_dec` gives is representable: each used slot was read as an id of its family (R107, R110). -/
theorem representable_of_ledDec {q : LedQuad} {v : LedConfig} (h : ledDec q = .ok v) : v.representable = true := by
  unfold ledDec at h
  split at h
  · cases h
  · obtain ⟨x1, dec1, h⟩ := bind_ok h
    obtain ⟨x2, dec2, h⟩ := bind_ok h
    obtain ⟨x3, dec3, h⟩ := bind_ok h
    cases h
    obtain ⟨slot1, -⟩ := (ledArg_eq_ok_iff _ _ _ _).mp dec1
    obtain ⟨slot2, -⟩ := (ledArg_eq_ok_iff _ _ _ _).mp dec2
    obtain ⟨slot3, -⟩ := (ledArg_eq_ok_iff _ _ _ _).mp dec3
    exact LedShape.representable_build slot1 slot2 slot3

/-- In step with RPT, C.led is representable (R29, R107). -/
theorem representable_of_lockstep {s : State} (h : Lockstep s) : s.cache.led.representable = true := by
  obtain ⟨q, -, dec⟩ := (synced_of_lockstep h).spells.led
  exact representable_of_ledDec dec

end Sys2Proof.Machine

namespace Sys2Proof.Proofs
open Sys2Proof.Machine

/-- Settles O17: the three fields of the descriptor are those of the slot. -/
theorem getprofReturnsTheSlot : Obligations.GetprofReturnsTheSlot := by
  intro s i
  rw [← eq_ofNat_of_toNat (profileDescriptor_toNat s.cache.prof[i])]
  exact succeeds_of_exec (exec_getprof s i)

/-- Settles O18: a C in step with RPT holds what `led_dec` gave, and the descriptor of that is valid. -/
theorem getledReturnsTheDescriptor : Obligations.GetledReturnsTheDescriptor := fun s =>
  ⟨_, s.cache.led.descriptor, exec_getled s, keepsReport_complete s _ [], succeeds_complete s _ [],
    s.cache.led.descriptor_toNat, fun inStep => (ledOfDescriptor_descriptor (representable_of_lockstep inStep)).1⟩

end Sys2Proof.Proofs
end

section
/-! PROOFS. The mutators (43_configuration_model.md R126 to R132): what each writes in RPT and in C, what it leaves
alone, and when the count byte agrees with the flags. -/

namespace Sys2Proof.Machine
open Sys2Proof.Claims

/-! ### What the mutators end on -/

theorem exec_setdpi (s : State) (i : Fin 5) (d : DpiIndex) : exec (.setdpi i.val d.val) s =
    .next ((s.writeProfileDpi i { s.cache.prof[i] with dpi := d }).complete 0 []) := by
  rw [exec, execSetdpi, profileSlot_val, dpiIndex_val]
  rfl

theorem exec_setled (s : State) {d : Word} (valid : descOk d = true) :
    exec (.setled d) s = .next ((s.writeLed (ledOfDescriptor d)).complete 0 []) := by
  rw [exec, execSetled, ledOperand, if_pos valid]
  rfl

/-! ### The bytes written -/

/-- Byte `k` of a word `MemWrite` puts at `o`, counted from the most significant (R11, R41). -/
theorem Memory.read_memWrite_word (m : Memory) (o : Nat) {w n k : Nat} (v : BitVec w) (h : k < n) :
    (m.memWrite o n v.toNat).read (o + k) = some (v.extractLsb' (8 * (n - 1 - k)) 8) := by
  rw [Memory.read_memWrite_inside m o n _ k h, show 256 = 2 ^ 8 from rfl, ← Nat.pow_mul, ← Nat.shiftRight_eq_div_pow]
  rfl

theorem Memory.read_memWrite_byte (m : Memory) (o : Nat) (b : Byte) : (m.memWrite o 1 b.toNat).read o = some b := by
  simpa using m.read_memWrite_word o b (n := 1) (k := 0) (by decide)

theorem dpiByte_eq_ofNat (a : Bool) (d : DpiIndex) :
    dpiByte a d = BitVec.ofNat 8 ((if a then 0 else 128) + d.val + 1) := by
  rw [← dpiByte_toNat, BitVec.ofNat_toNat, BitVec.setWidth_eq]

/-- An argument byte of `led_enc` is the raw value of its id, 0 in an unused slot (R91, R112). -/
theorem ledArgCode_eq_ofNat (fam : Option Family) (id : Byte) :
    ledArgCode fam id = BitVec.ofNat 8 (slotCode fam id) := by
  cases fam <;> rfl

/-- The four LED bytes after a write of a raw quad: the mode byte, then the arguments (R62, R129). -/
theorem Memory.read_memWrite_quad (m : Memory) (q : LedQuad) :
    (m.memWrite 93 4 q.word.toNat).read 93 = some q.mode ∧ (m.memWrite 93 4 q.word.toNat).read 94 = some q.arg1 ∧
      (m.memWrite 93 4 q.word.toNat).read 95 = some q.arg2 ∧
      (m.memWrite 93 4 q.word.toNat).read 96 = some q.arg3 := by
  have byte {k : Nat} (h : k < 4) := m.read_memWrite_word 93 q.word h
  exact ⟨(byte (k := 0) (by decide)).trans (congrArg some (quadOfBytes_mode _ _ _ _)),
    (byte (k := 1) (by decide)).trans (congrArg some (quadOfBytes_arg1 _ _ _ _)),
    (byte (k := 2) (by decide)).trans (congrArg some (quadOfBytes_arg2 _ _ _ _)),
    (byte (k := 3) (by decide)).trans (congrArg some (quadOfBytes_arg3 _ _ _ _))⟩

/-- `led_enc` of a shape with its ids: the mode byte and the raw values (R112). -/
theorem ledEnc_build {sh : LedShape} {x1 x2 : Byte} (slot1 : slotHasId sh.row.fam1 x1 = true)
    (slot2 : slotHasId sh.row.fam2 x2 = true) (x3 : Byte) :
    ledEnc (sh.build x1 x2 x3) = ⟨sh.row.mode, BitVec.ofNat 8 (slotCode sh.row.fam1 x1),
      BitVec.ofNat 8 (slotCode sh.row.fam2 x2), BitVec.ofNat 8 (slotCode (some sh.row.fam3) x3)⟩ := by
  simp only [ledEnc, LedShape.shape_build, LedShape.id1_build slot1, LedShape.id2_build slot2, LedShape.id3_build,
    ledArgCode_eq_ofNat]
  rfl

/-! ### The slots written -/

/-- Writing a profile slot changes that slot and no other (R27, R28). -/
theorem Cache.withProfile_slots (c : Cache) (i : Fin 5) (p : Profile) :
    (c.withProfile i p).prof[i] = p ∧ (∀ j : Fin 5, j ≠ i → (c.withProfile i p).prof[j] = c.prof[j]) ∧
      (c.withProfile i p).led = c.led :=
  ⟨c.withProfile_same i p, fun j ne => c.withProfile_other i j p ne.symm, rfl⟩

/-! ### The bytes left alone -/

/-- The offsets a command may write (R39, R131). -/
def mayWrite : Instr → Nat → Prop
  | .loaddef, _ | .load, _ => True
  | .setdpi pid _, o => o = 74 + pid
  | .setact pid _, o => o = 74 + pid ∨ o = 71
  | .setrgb pid _, o => 100 + 3 * pid ≤ o ∧ o ≤ 102 + 3 * pid
  | .setled _, o => 93 ≤ o ∧ o ≤ 96
  | _, _ => False

theorem Writes.read_kept {s u : State} {i : Instr} (h : Writes s i u) {o : Nat} (outside : ¬mayWrite i o) :
    u.rpt.read o = s.rpt.read o := by
  cases h with
  | nothing => rfl
  | loaddef | load => exact absurd trivial outside
  | setdpi i d =>
    simp only [mayWrite] at outside
    exact Memory.read_memWrite_outside _ _ _ _ _ (by simp only [dpiOffset]; omega)
  | setact i a =>
    simp only [mayWrite] at outside
    rw [State.recount_rpt, Memory.read_memWrite_outside _ _ _ _ _ (by omega)]
    exact Memory.read_memWrite_outside _ _ _ _ _ (by simp only [dpiOffset]; omega)
  | setrgb i c =>
    simp only [mayWrite] at outside
    exact Memory.read_memWrite_outside _ _ _ _ _ (by simp only [rgbOffset]; omega)
  | setled d =>
    simp only [mayWrite] at outside
    exact Memory.read_memWrite_outside _ _ _ _ _ (by omega)

/-- A command writes no byte outside its own offsets, however it ends (R131). -/
theorem Ends.read_kept {s t : State} {i : Instr} (h : Ends s i t) {o : Nat} (outside : ¬mayWrite i o) :
    t.rpt.read o = s.rpt.read o := by
  cases h with
  | raised e => rfl
  | succeeded u d w wr => exact wr.read_kept outside
  | statusRead reg d => rfl

/-! ### The count -/

/-- Bit `i` of the active mask is the flag of profile `i` (R101). -/
theorem activeMask_getLsbD (c : Cache) (i : Fin 5) : (activeMask c).getLsbD i.val = c.prof[i].active := by
  simp only [activeMask, BitVec.getLsbD_append]
  match i with
  | 0 | 1 | 2 | 3 | 4 => simp

/-- The mask counts the active profiles (R101). -/
theorem popcount_activeMask (c : Cache) :
    popcount (activeMask c) = (List.finRange 5).countP fun i => c.prof[i].active := by
  have offsets : List.range 5 = (List.finRange 5).map Fin.val := by decide
  rw [popcount, offsets, List.countP_map]
  exact List.countP_congr fun i _ => by rw [Function.comp, activeMask_getLsbD]

/-- A profile written with the flag it had leaves the mask as it was. -/
theorem activeMask_withProfile (c : Cache) (i : Fin 5) (p : Profile) (flag : p.active = c.prof[i].active) :
    activeMask (c.withProfile i p) = activeMask c := by
  refine BitVec.eq_of_getLsbD_eq fun k hk => ?_
  have slot := activeMask_getLsbD (c.withProfile i p) ⟨k, hk⟩
  by_cases same : i = ⟨k, hk⟩
  · rw [slot, activeMask_getLsbD c ⟨k, hk⟩, ← same, c.withProfile_same i p, flag]
  · rw [slot, activeMask_getLsbD c ⟨k, hk⟩, c.withProfile_other i _ p same]

/-- `recount()` makes the count byte agree with the flags (R101, R132). -/
theorem countFresh_recount (s : State) : CountFresh s.recount := Memory.read_memWrite_byte _ 71 _

theorem CountFresh.read_count {s : State} (h : CountFresh s) :
    s.rpt.read 71 = some (BitVec.ofNat 8 (0x20 + (List.finRange 5).countP fun i => s.cache.prof[i].active)) := by
  rw [h, ← popcount_activeMask, ← cntEnc_toNat, BitVec.ofNat_toNat, BitVec.setWidth_eq]

/-- A state with the count byte and the flags of a fresh one is fresh. -/
theorem CountFresh.congr {s u : State} (h : CountFresh s) (count : u.rpt.read 71 = s.rpt.read 71)
    (mask : activeMask u.cache = activeMask s.cache) : CountFresh u := by
  rw [CountFresh, count, mask]
  exact h

/-- No command but SETACT and the two constructions may write the count byte (R131, R132). -/
theorem count_not_mayWrite {i : Instr} (noLoad : i ≠ .load) (noLoaddef : i ≠ .loaddef)
    (noSetact : ∀ p a, i ≠ .setact p a) : ¬mayWrite i 71 := by
  cases i with
  | loaddef => exact absurd rfl noLoaddef
  | load => exact absurd rfl noLoad
  | setact p a => exact absurd rfl (noSetact p a)
  | setdpi | setrgb | setled => simp only [mayWrite]; omega
  | _ => exact id

/-- SETACT makes the count fresh; every other write but a construction keeps the byte and the flags (R132). -/
theorem Writes.countFresh {s u : State} {i : Instr} (h : Writes s i u) (noLoad : i ≠ .load) (noLoaddef : i ≠ .loaddef)
    (pre : CountFresh s) : CountFresh u := by
  have count (noSetact : ∀ p a, i ≠ .setact p a) : u.rpt.read 71 = s.rpt.read 71 :=
    h.read_kept (count_not_mayWrite noLoad noLoaddef noSetact)
  cases h with
  | nothing => exact pre
  | loaddef => exact absurd rfl noLoaddef
  | load => exact absurd rfl noLoad
  | setdpi i d => exact pre.congr (count nofun) (activeMask_withProfile _ _ _ rfl)
  | setact i a => exact countFresh_recount _
  | setrgb i c => exact pre.congr (count nofun) (activeMask_withProfile _ _ _ rfl)
  | setled d => exact pre.congr (count nofun) rfl

/-- LOAD stores the offered bytes, the count byte as it is (R122, R132). -/
theorem Writes.rpt_of_load {s u : State} {B : Report} (h : Writes s .load u) (win : s.win = B.toList) :
    u.rpt = Memory.ofReport B := by
  cases h with
  | nothing _ reads => cases reads
  | load B' c ok =>
    obtain ⟨bytes, -⟩ := loadCheck_ok ok
    rw [win, reportOfBytes_toList] at bytes
    cases bytes
    rfl

end Sys2Proof.Machine

namespace Sys2Proof.Proofs
open Sys2Proof.Machine Sys2Proof.Claims

/-- Settles O21: the slot and its byte are written together, with the flag the slot had. -/
theorem setdpiChangesOneProfile : Obligations.SetdpiChangesOneProfile := by
  intro s i d
  refine ⟨_, exec_setdpi s i d, (Writes.setdpi i d).succeeds 0 [], ?_, fun o apart => ?_,
    s.cache.withProfile_slots i _⟩
  · rw [← dpiByte_eq_ofNat]
    exact Memory.read_memWrite_byte _ _ _
  · exact (Writes.setdpi i d).read_kept apart

/-- Settles O22: the slot and its byte are written together, then the count of the flags as they now are. -/
theorem setactChangesFlagAndCount : Obligations.SetactChangesFlagAndCount := by
  intro s i a
  refine ⟨_, exec_setact s i a, (Writes.setact i a).succeeds 0 [], ?_, (countFresh_recount _).read_count,
    fun o apart count => ?_, s.cache.withProfile_slots i _⟩
  · rw [← dpiByte_eq_ofNat, State.complete_rpt, State.recount_rpt,
      Memory.read_memWrite_outside _ _ _ _ _ (by simp only [dpiOffset]; omega)]
    exact Memory.read_memWrite_byte _ _ _
  · exact (Writes.setact i a).read_kept (not_or.mpr ⟨apart, count⟩)

/-- Settles O23: the three bytes of the value in order, and the slot with the value. -/
theorem setrgbPassesTheColour : Obligations.SetrgbPassesTheColour := by
  intro s i rgb
  have byte {k : Nat} (h : k < 3) := s.rpt.read_memWrite_word (rgbOffset i) rgb h
  exact ⟨_, exec_setrgb s i rgb, (Writes.setrgb i rgb).succeeds 0 [], byte (k := 0) (by decide),
    byte (k := 1) (by decide), byte (k := 2) (by decide),
    fun o apart => Memory.read_memWrite_outside _ _ _ _ _ apart, s.cache.withProfile_slots i _⟩

/-- Settles O24: the descriptor spells the configuration, and its four bytes are the mode and the codes. -/
theorem setledRewritesTheLedBytes : Obligations.SetledRewritesTheLedBytes := by
  intro s sh x1 x2 x3 slot1 slot2 slot3
  obtain ⟨valid, spells⟩ := ledOfDescriptor_descriptor (LedShape.representable_build slot1 slot2 slot3)
  have run := exec_setled s valid
  have wr := Writes.setled (s := s) _ valid
  rw [spells, descriptor_build slot1 slot2] at run wr
  obtain ⟨mode, arg1, arg2, arg3⟩ := s.rpt.read_memWrite_quad (ledEnc (sh.build x1 x2 x3))
  have codes := ledEnc_build slot1 slot2 x3
  exact ⟨_, run, wr.succeeds 0 [], rfl, fun _ => rfl, mode.trans (by rw [codes]), arg1.trans (by rw [codes]),
    arg2.trans (by rw [codes]), arg3.trans (by rw [codes]),
    fun o apart => wr.read_kept (by simp only [mayWrite]; omega)⟩

/-- Settles O25: what a command may write is its own offsets. -/
theorem mutatorsTouchOnlyTheirFields : Obligations.MutatorsTouchOnlyTheirFields := by
  intro s t pid o
  refine ⟨fun d h apart => ?setdpi, fun a h apart count => ?setact, fun c h apart => ?setrgb, fun d h apart => ?setled⟩
  case setdpi => exact (exec_ends h).read_kept apart
  case setact => exact (exec_ends h).read_kept (not_or.mpr ⟨apart, count⟩)
  case setrgb => exact (exec_ends h).read_kept (by simp only [mayWrite]; omega)
  case setled => exact (exec_ends h).read_kept (by simp only [mayWrite]; omega)

/-- Settles O27: SETACT recounts, no other mutator writes the byte or a flag, and a construction stores it as it is. -/
theorem countFreshFromSetact : Obligations.CountFreshFromSetact := by
  refine ⟨fun s t i a h => ?setact, fun i s t noLoad noLoaddef pre h => ?kept,
    fun i s t noLoad noLoaddef noSetact h => ?byte, fun s t B win h success => ?load, fun s t h => ?loaddef⟩
  case setact =>
    rw [exec_setact] at h
    cases h
    exact countFresh_recount _
  case kept =>
    cases exec_ends h with
    | raised e => exact pre
    | succeeded u d w wr => exact wr.countFresh noLoad noLoaddef pre
    | statusRead reg d => exact pre
  case byte => exact (exec_ends h).read_kept (count_not_mayWrite noLoad noLoaddef noSetact)
  case load =>
    obtain ⟨r, resp, code⟩ := success
    obtain ⟨u, d, w, wr, rfl⟩ := (exec_ends h).written nofun resp code
    rw [State.complete_rpt, wr.rpt_of_load win]
    exact Memory.read_ofReport B 71 (by decide)
  case loaddef =>
    cases h
    exact Memory.read_ofReport _ 71 (by decide)

end Sys2Proof.Proofs
end

section
/-! PROOFS. The error record (44_status.md R141 to R143, 60_exceptions.md R151): RDSTAT reads it, every other instruction
writes its RESP_CODE to LAST_CODE, and a sticky bit once set stays until reset. -/

namespace Sys2Proof.Machine
open Sys2Proof.Claims

/-! ### Reading the record -/

theorem exec_rdstat_status (s : State) : exec (.rdstat 0) s = .next (s.completeKeepingRecord s.status) := rfl

theorem exec_rdstat_info (s : State) : exec (.rdstat 1) s = .next (s.completeKeepingRecord s.lastInfo) := rfl

theorem keepsReport_completeKeepingRecord (s : State) (d : Word) : KeepsReport s (s.completeKeepingRecord d) :=
  ⟨fun _ => rfl, rfl, rfl⟩

theorem samePorts_completeKeepingRecord (s : State) (d : Word) : SamePorts s (s.completeKeepingRecord d) :=
  ⟨rfl, rfl, rfl⟩

/-! ### The sticky bits -/

/-- The sticky bit set is the one of RESP_CODE (R151). -/
theorem statusOnRaise_sticky (status : Word) (kind : ExcKind) {k : Nat} (positive : 1 ≤ k) :
    (statusOnRaise status kind).getLsbD (7 + k) =
      (status.getLsbD (7 + k) || (BitVec.ofNat 8 kind.code).toNat == k) := by
  have code : (BitVec.ofNat 8 kind.code).toNat = kind.code := by cases kind <;> rfl
  have index : 7 + k = stickyBit kind ↔ kind.code = k := by rw [stickyBit]; omega
  rw [statusOnRaise_high _ _ _ (by omega), code, decide_eq_decide.mpr index]
  rfl

theorem statusOnRaise_keeps_set {status : Word} (kind : ExcKind) {b : Nat} (high : 8 ≤ b)
    (set : status.getLsbD b = true) : (statusOnRaise status kind).getLsbD b = true := by
  rw [statusOnRaise_high _ _ _ high, set, Bool.true_or]

/-- However an instruction ends, the sticky bit of its RESP_CODE is set and no other changes (R142, R151). -/
theorem Ends.sticky {s t : State} {i : Instr} {r : Response} (h : Ends s i t) (resp : t.resp = some r) {k : Nat}
    (positive : 1 ≤ k) : t.status.getLsbD (7 + k) = (s.status.getLsbD (7 + k) || r.code.toNat == k) := by
  have none_raised : ((0 : Byte).toNat == k) = false := beq_false_of_ne (Nat.ne_of_lt positive)
  cases h with
  | raised e => cases resp; exact statusOnRaise_sticky s.status e.kind positive
  | succeeded u d w wr =>
    cases resp
    rw [(wr.succeeds d w).kept _ (by omega), none_raised, Bool.or_false]
  | statusRead reg d => cases resp; rw [none_raised, Bool.or_false]; rfl

/-- LAST_CODE is the RESP_CODE driven, but for a successful RDSTAT (R142). -/
theorem Ends.lastCode_eq {s t : State} {i : Instr} {r : Response} (h : Ends s i t) (resp : t.resp = some r)
    (other : ¬((∃ reg, i = .rdstat reg) ∧ r.code = 0)) : lastCode t.status = r.code := by
  cases h with
  | raised e => cases resp; exact lastCode_statusOnRaise s.status e.kind
  | succeeded u d w => cases resp; exact lastCode_statusOnSuccess u.status
  | statusRead reg d isRdstat => cases resp; exact absurd ⟨⟨reg, isRdstat⟩, rfl⟩ other

/-- A successful RDSTAT keeps the record (R141, R151). -/
theorem Ends.record_kept {s t : State} {i : Instr} {r : Response} (h : Ends s i t) (resp : t.resp = some r)
    (isRdstat : ∃ reg, i = .rdstat reg) (success : r.code = 0) : t.status = s.status ∧ t.lastInfo = s.lastInfo := by
  cases h with
  | raised e => cases resp; exact absurd success (code_ne_zero e.kind)
  | succeeded u d w wr other => obtain ⟨reg, eq⟩ := isRdstat; exact absurd eq (other reg)
  | statusRead reg d => exact ⟨rfl, rfl⟩

/-- No instruction clears a sticky bit (R143). -/
theorem exec_keeps_sticky {i : Instr} {s t : State} (h : exec i s = .next t) {b : Nat} (high : 8 ≤ b)
    (set : s.status.getLsbD b = true) : t.status.getLsbD b = true := by
  obtain ⟨k, rfl⟩ : ∃ k, b = 7 + k := Nat.exists_eq_add_of_le (by omega)
  have ends := exec_ends h
  obtain ⟨r, resp⟩ := Option.isSome_iff_exists.mp ends.samePorts.2
  rw [ends.sticky resp (by omega), set, Bool.true_or]

end Sys2Proof.Machine

namespace Sys2Proof.Proofs
open Sys2Proof.Machine

/-- Settles O45: each clause is a law of how an instruction ends. -/
theorem recordFollowsTheResponse : Obligations.RecordFollowsTheResponse := by
  intro i s t h
  have ends := exec_ends h
  obtain ⟨r, resp⟩ := Option.isSome_iff_exists.mp ends.samePorts.2
  exact ⟨r, resp, fun ⟨isRdstat, success⟩ => ends.record_kept resp isRdstat success, ends.lastCode_eq resp,
    fun _ positive _ => ends.sticky resp positive⟩

/-- Settles O46, by the cases of a step: to wait, to perform an instruction and to raise keep a set bit, and a reset is
shut out. -/
theorem onlyResetClearsStickyBits : Obligations.OnlyResetClearsStickyBits := by
  intro s t h noReset b high _ set
  obtain ⟨-, rfl⟩ | ⟨rest, reset, -⟩ | ⟨p, win, rest, i, -, -, run⟩ | ⟨p, win, rest, e, -, -, rfl⟩ := step_cases h
  · exact set
  · exact absurd reset (noReset rest)
  · exact exec_keeps_sticky run high set
  · exact statusOnRaise_keeps_set _ high set

/-- Settles O19: both registers are answered by the same end, which keeps the record. -/
theorem rdstatReadsTheRecord : Obligations.RdstatReadsTheRecord := fun s =>
  ⟨_, _, exec_rdstat_status s, exec_rdstat_info s, rfl, rfl, rfl, rfl, keepsReport_completeKeepingRecord s _,
    samePorts_completeKeepingRecord s _, rfl, rfl, keepsReport_completeKeepingRecord s _,
    samePorts_completeKeepingRecord s _⟩

end Sys2Proof.Proofs
end

section
/-! PROOFS. The block goes on (60_exceptions.md R150, R154): in a state whose RPT is in its form every instruction ends in
a next state, so every step does, and the invariant carries this along a run. -/

namespace Sys2Proof.Machine
open Sys2Proof.Claims

/-! ### Reading what is there -/

/-- `MemRead` answers wherever its bytes lie in the report (R11, R38). -/
theorem Memory.exists_memRead {m : Memory} (wf : m.wf = true) {o n : Nat} (h : o + n ≤ reportSize) :
    ∃ v, m.memRead o n = some v := by
  induction n with
  | zero => exact ⟨0, rfl⟩
  | succ n ih =>
    obtain ⟨hi, front⟩ := ih (by omega)
    obtain ⟨b, last⟩ := Memory.exists_read wf (o := o + n) (by omega)
    exact ⟨_, Memory.memRead_succ front last⟩

/-- Every named field lies in the report (R64). -/
theorem fieldPlace_inside {f o n : Nat} (h : fieldPlace f = .ok (o, n)) : o + n ≤ reportSize := by
  have legal : f < 16 := by
    by_contra above
    rw [fieldPlace_above (by omega)] at h
    cases h
  have all : ∀ f : Fin 16, ∀ place ∈ (fieldPlace f.val).toOption, place.1 + place.2 ≤ reportSize := by decide
  exact all ⟨f, legal⟩ (o, n) (by rw [h]; rfl)

/-! ### The three commands that read RPT as bytes -/

/-- RDBYTE checks its offset before anything is read (R80). -/
theorem exec_rdbyte_error {o : Nat} {e : Exc} (place : reportOffset o = .error e) (s : State) :
    exec (.rdbyte o) s = .next (s.raise e) := by
  simp only [exec, execRdbyte, place, answer]

theorem exec_rdfld_error {f : Nat} {e : Exc} (place : fieldPlace f = .error e) (s : State) :
    exec (.rdfld f) s = .next (s.raise e) := by
  simp only [exec, execRdfld, place, answer]

theorem reportOffset_above {o : Nat} (h : 153 < o) : reportOffset o = .error (.badOperand o) := if_neg (by omega)

theorem rdbyte_next {s : State} (wf : s.rpt.wf = true) (o : Nat) : ∃ t, exec (.rdbyte o) s = .next t := by
  by_cases legal : o ≤ 153
  · obtain ⟨b, read⟩ := Memory.exists_read wf (Nat.lt_succ_of_le legal)
    exact ⟨_, exec_rdbyte legal read⟩
  · exact ⟨_, exec_rdbyte_error (reportOffset_above (by omega)) s⟩

theorem rdfld_next {s : State} (wf : s.rpt.wf = true) (f : Nat) : ∃ t, exec (.rdfld f) s = .next t := by
  cases place : fieldPlace f with
  | ok p =>
    obtain ⟨v, read⟩ := Memory.exists_memRead wf (fieldPlace_inside place)
    exact ⟨_, exec_rdfld place read⟩
  | error e => exact ⟨_, exec_rdfld_error place s⟩

/-! ### Progress -/

theorem rdstat_next (s : State) (reg : Nat) : ∃ t, exec (.rdstat reg) s = .next t := by
  match reg with
  | 0 | 1 | n + 2 => exact ⟨_, rfl⟩

/-- In a state whose RPT is in its form no instruction stops (R150). -/
theorem exec_next {s : State} (wf : s.rpt.wf = true) (i : Instr) : ∃ t, exec i s = .next t := by
  cases i with
  | rdraw => exact ⟨_, exec_rdraw wf⟩
  | rdbyte o => exact rdbyte_next wf o
  | rdfld f => exact rdfld_next wf f
  | rdstat reg => exact rdstat_next s reg
  | loaddef | getled | cntenc _ => exact ⟨_, rfl⟩
  | load | setdpi _ _ | setact _ _ | setrgb _ _ | setled _ => exact commit_next s _
  | getprof _ | dpienc _ _ | dpidec _ | affenc _ _ | affdec _ _ | ledenc _ | leddec _ | cntdec _
  | ledSteady _ _ _ | ledBreathe _ _ _ | ledBlinkResp _ _ _ | ledBlinkGlow _ _ _ | ledBlinkNeon _ _ _
  | ledHoldResp _ _ _ | ledHoldGlow _ _ _ | ledHoldNeon _ _ _ => exact answer_next s _

/-- Nor does any word presented, whether or not it decodes (R66, R150). -/
theorem runPresented_next {s : State} (wf : s.rpt.wf = true) (p : Presented) : ∃ t, runPresented p s = .next t := by
  cases dec : decode p with
  | ok i => rw [runPresented, dec]; exact exec_next wf i
  | error d => exact ⟨_, runPresented_error dec s⟩

theorem step_next {s : State} (wf : s.rpt.wf = true) : ∃ t, step s = .next t := by
  rw [step]
  split
  · exact ⟨_, rfl⟩
  · exact ⟨_, rfl⟩
  · exact runPresented_next (s := s.accept _ _) wf _

theorem core_run_succ {s t : State} (k : Nat) (h : step s = .next t) : core.run (k + 1) s = core.run k t := by
  have stepped : core.step s = .next t := h
  simp only [Host.Core.run, stepped]

end Sys2Proof.Machine

namespace Sys2Proof.Proofs
open Sys2Proof.Machine

/-- Settles O53, by induction on the number of steps: a state of the invariant steps, and to a state of the invariant. -/
theorem theBlockNeverStops : Obligations.TheBlockNeverStops := by
  intro s k
  induction k generalizing s with
  | zero => exact fun _ => ⟨s, rfl⟩
  | succ k ih =>
    intro inv
    obtain ⟨t, run⟩ := step_next inv.report
    obtain ⟨u, rest⟩ := ih t (stepKeepsTheInvariant s t inv run)
    exact ⟨u, (core_run_succ k run).trans rest⟩

end Sys2Proof.Proofs
end

section
/-! PROOFS. Exceptions are precise (60_exceptions.md R150, R154) and are their command's own (R149). -/

namespace Sys2Proof.Machine
open Sys2Proof.Claims

/-- The three codes of R147. -/
theorem ExcKind.code_range (k : ExcKind) : 1 ≤ k.code ∧ k.code ≤ 3 := by cases k <;> decide

theorem ExcKind.code_toNat (k : ExcKind) : (BitVec.ofNat 8 k.code).toNat = k.code := by cases k <;> rfl

/-- What the host may see after a word: an answer with RESP_CODE 0, or an exception of R147 and nothing else changed
(R150, R154). -/
def Precise (s t : State) : Prop :=
  (∃ r, t.resp = some r ∧ r.code = 0) ∨ (∃ code cause detail, 1 ≤ code ∧ code ≤ 3 ∧ Raises s t code cause detail)

theorem precise_raise (s : State) (e : Exc) : Precise s (s.raise e) :=
  .inr ⟨_, _, _, e.kind.code_range.1, e.kind.code_range.2, raises_raise s e⟩

theorem Ends.precise {s t : State} {i : Instr} (h : Ends s i t) : Precise s t := by
  cases h with
  | raised e => exact precise_raise s e
  | succeeded u d w => exact .inl ⟨_, rfl, rfl⟩
  | statusRead reg d => exact .inl ⟨_, rfl, rfl⟩

/-- RESP_CODE other than 0 says that the command ended by raising (R150). -/
theorem Ends.raised_of_code {s t : State} {i : Instr} {r : Response} (h : Ends s i t) (resp : t.resp = some r)
    (failed : r.code ≠ 0) : ∃ e, t = s.raise e := by
  cases h with
  | raised e => exact ⟨e, rfl⟩
  | succeeded u d w => cases resp; exact absurd rfl failed
  | statusRead reg d => cases resp; exact absurd rfl failed

end Sys2Proof.Machine

namespace Sys2Proof.Proofs
open Sys2Proof.Machine Sys2Proof.Claims

/-- Settles O44: a word that decodes ends as its instruction does, and one that does not only raises. -/
theorem exceptionsArePrecise : Obligations.ExceptionsArePrecise := by
  intro p s t h
  cases dec : decode p with
  | ok i => rw [runPresented, dec] at h; exact (exec_ends h).precise
  | error d => rw [runPresented_error dec] at h; cases h; exact precise_raise s _

/-- Settles O47: what is left is an exception of the instruction, its code in RESP_CODE and its cause in LAST_INFO. -/
theorem causesAreTheCommands : Obligations.CausesAreTheCommands := by
  intro i s t r h resp failed
  obtain ⟨e, rfl⟩ := (exec_ends h).raised_of_code resp failed
  cases resp
  have cause : bitsOf (infoOf e) 31 24 = e.cause.toNat := congrArg BitVec.toNat (infoOf_cause e)
  rw [State.raise_lastInfo, cause, e.kind.code_toNat]
  exact exec_raises h

end Sys2Proof.Proofs
end

section
/-! PROOFS. Operands and offered lists that are out of range (60_exceptions.md R148, R153): each raises the exception of
the first check it fails. -/

namespace Sys2Proof.Machine
open Sys2Proof.Claims

/-! ### Raising with a detail -/

/-- An exception whose detail fits its 24 bits is recorded with that detail (R148, R151). -/
theorem raises_of_exec {i : Instr} {s : State} {kind : ExcKind} {cause : Byte} {n : Nat}
    (h : exec i s = .next (s.raise ⟨kind, cause, detailOf n⟩)) (fits : n < 2 ^ 24) :
    ∃ t, exec i s = .next t ∧ Raises s t kind.code cause.toNat n := by
  have raised := raises_raise s ⟨kind, cause, detailOf n⟩
  rw [detailOf_toNat fits] at raised
  exact ⟨_, h, raised⟩

/-- A byte below a location of the report fits the detail (R148). -/
theorem located_byte_fits {loc : Nat} (b : Byte) (h : loc < 256) : loc * 256 + b.toNat < 2 ^ 24 := by
  have fits := b.isLt
  omega

/-! ### Operands out of range -/

theorem exec_dpienc_above (a : Bool) {d : Nat} (h : 126 < d) (s : State) :
    exec (.dpienc a d) s = .next (s.raise (.badDpiIndex d)) := by
  rw [exec, execDpienc, dpiEnc, dpiIndex_above h]
  rfl

theorem dpiDec_zero {r : Byte} (h : bitsOf r 6 0 = 0) (loc : Nat) : dpiDec r loc = .error (.badDpiByte loc r) := dif_pos h

theorem exec_dpidec_zero {r : Byte} (h : bitsOf r 6 0 = 0) (s : State) :
    exec (.dpidec r) s = .next (s.raise (.badDpiByte 0 r)) := by
  rw [exec, execDpidec, dpiDec_zero h]
  rfl

theorem exec_affenc_bad {sel id : Nat} {f : Family} (fam : familyOfSel sel = .ok f) (bad : f.hasId id = false)
    (s : State) : exec (.affenc sel id) s = .next (s.raise (.badOperand id)) := by
  have enc : affEnc f id = .error (.badOperand id) := if_neg (by simp [bad])
  rw [exec, execAffenc, fam]
  simp only [bind, Except.bind, enc, answer]

theorem exec_affdec_bad {sel : Nat} {f : Family} {r : Byte} (fam : familyOfSel sel = .ok f) (bad : affOk f r = false)
    (s : State) : exec (.affdec sel r) s = .next (s.raise (.badAffineByte sel r)) := by
  rw [exec, execAffdec, fam]
  simp [bind, Except.bind, bad, answer]

theorem familyOfSel_lt {sel : Nat} {f : Family} (h : familyOfSel sel = .ok f) : sel < 6 := by
  by_contra above
  rw [familyOfSel_above (by omega)] at h
  cases h

theorem exec_cntdec_bad {r : Byte} (h : r.toNat < 0x20 ∨ 0x25 < r.toNat) (s : State) :
    exec (.cntdec r) s = .next (s.raise (.badCountByte r)) := by
  rw [exec, execCntdec, cntDec, if_pos h]
  rfl

theorem ledOperand_invalid {d : Word} (h : descOk d = false) : ledOperand d = .error (.badOperand (bitsOf d 23 0)) :=
  if_neg (by simp [h])

theorem exec_setled_invalid {d : Word} (h : descOk d = false) (s : State) :
    exec (.setled d) s = .next (s.raise (.badOperand (bitsOf d 23 0))) := by
  rw [exec, execSetled, ledOperand_invalid h]
  rfl

theorem exec_ledenc_invalid {d : Word} (h : descOk d = false) (s : State) :
    exec (.ledenc d) s = .next (s.raise (.badOperand (bitsOf d 23 0))) := by
  rw [exec, execLedenc, ledOperand_invalid h]
  rfl

/-! ### LOAD's checks -/

theorem exec_load_badLength {s : State} (h : s.win.length ≠ 154) :
    exec .load s = .next (s.raise (.badLength s.win.length)) := by
  have bad : reportOfBytes s.win = .error (.badLength s.win.length) := dif_neg h
  rw [exec, execLoad, loadCheck, bad]
  rfl

theorem exec_load_error {s : State} {B : Report} {e : Exc} (win : s.win = B.toList) (dec : decodeAll B = .error e) :
    exec .load s = .next (s.raise e) := by
  rw [exec, execLoad, win, loadCheck, reportOfBytes_toList]
  simp only [bind, Except.bind, dec]
  rfl

theorem dpiOf_ok {B : Report} {i : Fin 5} (h : bitsOf (dpiByteAt B i) 6 0 ≠ 0) : ∃ ad, dpiOf B i = .ok ad := by
  obtain ⟨d, -, dec⟩ := dpiDec_of_bits h
  exact ⟨_, dec (dpiOffset i)⟩

/-- The first DPI byte that does not decode is the one reported (R123, R153). -/
theorem decodeAll_bad_dpi {B : Report} {i : Fin 5} (bad : bitsOf (dpiByteAt B i) 6 0 = 0)
    (before : ∀ j < i, bitsOf (dpiByteAt B j) 6 0 ≠ 0) :
    decodeAll B = .error (.badDpiByte (dpiOffset i) (dpiByteAt B i)) := by
  have first : dpiOf B i = .error (.badDpiByte (dpiOffset i) (dpiByteAt B i)) := dpiDec_zero bad (dpiOffset i)
  choose! ad dec using fun j h => dpiOf_ok (before j h)
  match i with
  | 0 | 1 | 2 | 3 | 4 => simp only [decodeAll, dec, Fin.isValue, Fin.reduceLT, first, bind, Except.bind]

/-- The LED bytes are checked once the five DPI bytes have decoded (R153). -/
theorem decodeAll_bad_led {B : Report} {e : Exc} (dpi : dpiBytesOk B) (led : ledDec (quadOf B) = .error e) :
    decodeAll B = .error e := by
  choose ad dec using fun i => dpiOf_ok (dpi i)
  simp only [decodeAll, dec, led, bind, Except.bind]

/-- LOAD of a list with legal DPI bytes raises what LEDDEC raises of its LED bytes (R117, R153). -/
theorem load_raises_of_leddec {s : State} {B : Report} {cause detail : Nat} (win : s.win = B.toList)
    (dpi : dpiBytesOk B)
    (h : ∃ t, exec (.leddec (packQuad B[93] B[94] B[95] B[96])) s = .next t ∧ Raises s t 1 cause detail) :
    ∃ t, exec .load s = .next t ∧ Raises s t 1 cause detail := by
  obtain ⟨t, run, raised⟩ := h
  have quad : quadOfWord (packQuad B[93] B[94] B[95] B[96]) = quadOf B := quadOfWord_word (quadOf B)
  rw [exec, execLeddec, quad] at run
  cases led : ledDec (quadOf B) with
  | ok v => rw [led] at run; cases run; cases raised.resp
  | error e => rw [led] at run; cases run; exact ⟨_, exec_load_error win (decodeAll_bad_led dpi led), raised⟩

end Sys2Proof.Machine

namespace Sys2Proof.Proofs
open Sys2Proof.Machine Sys2Proof.Claims

/-- Settles O8: each operand fails the one check of its range, and the detail R148 gives fits. -/
theorem operandViolationsRaise : Obligations.OperandViolationsRaise := by
  refine fun s => ⟨fun o h fits => ?rdbyte, fun i d h fits => ?setdpi, fun a d h fits => ?dpienc, fun r h => ?dpidec,
    fun sel f id fam h fits => ?affenc, fun sel f r fam h => ?affdec, fun r h => ?cntdec, fun d h => ?setled,
    fun d h => ?ledenc⟩
  case rdbyte => exact raises_of_exec (exec_rdbyte_error (reportOffset_above h) s) (by omega)
  case setdpi => exact raises_of_exec (exec_setdpi_above s i h) (by omega)
  case dpienc => exact raises_of_exec (exec_dpienc_above a h s) (by omega)
  case dpidec =>
    have raised := raises_of_exec (exec_dpidec_zero h s) (located_byte_fits r (by decide))
    rwa [Nat.zero_mul, Nat.zero_add] at raised
  case affenc => exact raises_of_exec (exec_affenc_bad fam h s) (by omega)
  case affdec =>
    have sel := familyOfSel_lt fam
    exact raises_of_exec (exec_affdec_bad fam h s) (located_byte_fits r (by omega))
  case cntdec => exact raises_of_exec (exec_cntdec_bad h s) (Nat.lt_of_lt_of_le r.isLt (by decide))
  case setled => exact raises_of_exec (exec_setled_invalid h s) (BitVec.isLt _)
  case ledenc => exact raises_of_exec (exec_ledenc_invalid h s) (BitVec.isLt _)

/-- Settles O10: the length, then the DPI bytes in profile order, then what LEDDEC checks in its order. -/
theorem loadChecksInOrder : Obligations.LoadChecksInOrder := by
  refine ⟨fun s h => raises_of_exec (exec_load_badLength h) (by omega), fun s B win => ?_⟩
  have badDpi (i : Fin 5) (bad : bitsOf (dpiByteAt B i) 6 0 = 0) (before : ∀ j < i, bitsOf (dpiByteAt B j) 6 0 ≠ 0) :=
    raises_of_exec (exec_load_error win (decodeAll_bad_dpi bad before))
      (located_byte_fits _ (by simp only [dpiOffset]; omega))
  obtain ⟨mode, args⟩ := leddecChecksInOrder B[93] B[94] B[95] B[96] s
  refine ⟨badDpi, fun dpi unknown => load_raises_of_leddec win dpi (mode unknown), fun sh dpi known => ?_,
    fun bad before _ => badDpi 3 bad before⟩
  obtain ⟨arg1, arg2, arg3⟩ := args sh known
  exact ⟨fun f fam bad => load_raises_of_leddec win dpi (arg1 f fam bad),
    fun f ok1 fam bad => load_raises_of_leddec win dpi (arg2 f ok1 fam bad),
    fun ok1 ok2 bad => load_raises_of_leddec win dpi (arg3 ok1 ok2 bad)⟩

end Sys2Proof.Proofs
end

section
/-! PROOFS. Reset and hazards (70_reset_and_hazards.md): LOADDEF against reset (R168), and SETACT with the flag a profile
already has, which repairs the count byte (R174). -/

namespace Sys2Proof.Machine
open Sys2Proof.Claims

/-! ### The two ways back to DEFAULT_REPORT -/

theorem exec_loaddef (s : State) : exec .loaddef s =
    .next ((s.construct Config.defaultReport.bytes Config.defaultReport.cache).complete 0 []) := rfl

theorem step_reset {s : State} {rest : List Input} (pending : s.pending = .reset :: rest) :
    step s = .next (State.assertReset rest) := by
  rw [step, pending]

/-! ### A profile written as it is -/

/-- A byte that `dpi_dec` accepts is the one `dpi_enc` makes of what it decodes to (R90). -/
theorem dpiByte_of_dpiDec {r : Byte} {loc : Nat} {a : Bool} {d : DpiIndex} (h : dpiDec r loc = .ok (a, d)) :
    dpiByte a d = r := by
  have legal : bitsOf r 6 0 ≠ 0 := fun zero => by
    rw [dpiDec_zero zero] at h
    cases h
  obtain ⟨d', index, dec⟩ := dpiDec_of_bits legal
  cases (dec loc).symm.trans h
  exact dpiByte_of_bits legal index

/-- Where C is the decode of RPT, each DPI byte is the one its slot encodes to (R22, R29). -/
theorem Synced.read_dpi {s : State} (h : Synced s) (i : Fin 5) :
    s.rpt.read (dpiOffset i) = some (dpiByte s.cache.prof[i].active s.cache.prof[i].dpi) := by
  obtain ⟨raw, field, dec⟩ := h.spells.dpi i
  obtain ⟨b, read⟩ := Memory.exists_read h.report (o := dpiOffset i) (by simp only [dpiOffset, reportSize]; omega)
  rw [Memory.memRead_one read, Option.some.injEq, BitVec.toNat_inj] at field
  rw [read, field, dpiByte_of_dpiDec dec]

theorem Cache.withProfile_self (c : Cache) (i : Fin 5) : c.withProfile i c.prof[i] = c :=
  congrArg (Cache.mk · c.led) (Vector.set_getElem_self i.isLt)

/-- Writing a profile's slot and DPI byte as C holds them changes no byte of RPT (R174). -/
theorem Synced.read_writeProfileDpi_self {s : State} (h : Synced s) (i : Fin 5) (o : Nat) :
    (s.writeProfileDpi i s.cache.prof[i]).rpt.read o = s.rpt.read o := by
  rw [State.writeProfileDpi_rpt]
  by_cases same : o = dpiOffset i
  · rw [same, Memory.read_memWrite_byte, h.read_dpi]
  · exact Memory.read_memWrite_outside _ _ _ _ _ (by omega)

end Sys2Proof.Machine

namespace Sys2Proof.Proofs
open Sys2Proof.Machine Sys2Proof.Claims

/-- Settles O28: the slot and the DPI byte are written as they were, so only the recount can change a byte. -/
theorem setactRepairsTheCount : Obligations.SetactRepairsTheCount := by
  refine fun s i inv => ⟨_, exec_setact s i _, s.cache.withProfile_self i, fun o apart => ?_, countFresh_recount _⟩
  rw [State.complete_rpt, State.recount_rpt, Memory.read_memWrite_outside _ _ _ _ _ (by omega)]
  exact inv.synced.read_writeProfileDpi_self i o

/-- Settles O12: both leave DEFAULT_REPORT and its decode; LOADDEF ends as every success does (R151), and the reset clears
the record. -/
theorem loaddefAgreesWithReset : Obligations.LoaddefAgreesWithReset := by
  intro s rest
  have success := (Writes.loaddef (s := s)).succeeds 0 []
  exact ⟨_, _, exec_loaddef s, step_reset rfl, rfl, rfl, success.lastCode, success.lastInfo, success.kept, rfl, rfl,
    success.resp, success.ports⟩

end Sys2Proof.Proofs
end
